-- ==== Sys2Proof/Word.lean ====
section
/-! DEFINITION. The word types of the MCC and the widths the spec names (spec/00_scope.md R9, spec/30_encoding.md R100). -/

namespace Sys2Proof

/-- A register as `RD.REG` returns it and `WR.REG` takes it: 32 bits (spec/10_state.md R21). -/
abbrev Word := BitVec 32

/-- An operation word: bits 39..32 the opcode byte, bits 31..0 the operand (spec/30_encoding.md R100). -/
abbrev OpWord := BitVec 40

/-- The opcode byte of an operation word. -/
abbrev Opcode := BitVec 8

/-- A register number (spec/10_state.md R21). -/
abbrev RegNum := BitVec 6

end Sys2Proof
end

