-- ==== Sys2Proof/Machine/Arith.lean ====
section
/-! DEFINITION. The integer arithmetic of spec/00_scope.md R10: every value is a mathematical integer unless a rule names a
width. -/

namespace Sys2Proof.Machine

/-- `tdiv`: the quotient rounded toward zero. -/
def tdiv (a b : Int) : Int := Int.tdiv a b

/-- `asr`: the arithmetic right shift, floor(a / 2^n). -/
def asr (a : Int) (n : Nat) : Int := a / 2 ^ n

/-- One bit after another of the square root, the highest first: `r` is the root found so far, `k` bits are to come. -/
def isqrtFrom : Nat → Nat → Nat → Nat
  | 0, r, _ => r
  | k + 1, r, n => if (r + 2 ^ k) * (r + 2 ^ k) ≤ n then isqrtFrom k (r + 2 ^ k) n else isqrtFrom k r n

/-- `isqrt`: the largest integer whose square is at most `n`. -/
def isqrt (n : Nat) : Nat := isqrtFrom (n.log2 / 2 + 1) 0 n

/-- `clamp(x, lo, hi)`; when `lo > hi` this gives `hi`. -/
def clamp (x lo hi : Int) : Int := min (max x lo) hi

/-- `sat_s32`. -/
def satS32 (x : Int) : Int := clamp x (-2147483648) 2147483647

/-- `sat_u16_inc`: a counter that stays at 65535. -/
def satU16Inc (c : BitVec 16) : BitVec 16 := if c = 0xFFFF then c else c + 1

/-- `to_s32` (spec/00_scope.md R9): a word read as two's complement. -/
def toS32 (w : Word) : Int := w.toInt

/-- `to_u32` (spec/00_scope.md R9): the word whose s32 reading is `x`. -/
def toU32 (x : Int) : Word := BitVec.ofInt 32 x

/-- A 16-bit field read as two's complement (spec/30_encoding.md R107, R109). -/
def toS16 (h : BitVec 16) : Int := h.toInt

end Sys2Proof.Machine
end

