-- ==== Sys2Proof/Machine/Registers.lean ====
section
/-! DEFINITION. The register map of spec/10_state.md R21: names, numbers, types and access classes (R22, R65). -/

namespace Sys2Proof.Machine

/-- The 39 mapped registers of spec/10_state.md R21. -/
inductive Reg where
  | mode | dir | stallThr | pwmPeriod | pulse | pidRoute
  | pidTarget | pidKp | pidKi | pidKd | pidOutMin | pidOutMax | pidIntMin | pidIntMax
  | status | hallState | stallCnt | invHallCnt
  | outDutyA | outDutyB | outDutyC | outGate
  | stgDutyA | stgDutyB | stgDutyC | stgGate
  | hallIn | lastErr | faultCode
  | pidMeasured | pidError | pidPrevError | pidIntegral | pidOut
  | svmState | svmDutyA | svmDutyB | svmDutyC | ovmErrCnt
  deriving DecidableEq, Repr

/-- Access classes of spec/10_state.md R22. -/
inductive Access where
  | rw
  /-- `MODE`: the write is refused in some states (R25). -/
  | rwGuarded
  | ro
  /-- `STATUS`: bits 2..4 are write-one-to-clear, the rest is read-only (R39). -/
  | w1c
  /-- `HALL_IN`: the value is an input (R54). -/
  | volatileInput
  deriving DecidableEq, Repr

/-- The number of a register (spec/10_state.md R21). -/
def regNumber : Reg → RegNum
  | .mode => 0x00 | .dir => 0x01 | .stallThr => 0x02 | .pwmPeriod => 0x03 | .pulse => 0x04 | .pidRoute => 0x05
  | .pidTarget => 0x08 | .pidKp => 0x09 | .pidKi => 0x0A | .pidKd => 0x0B
  | .pidOutMin => 0x0C | .pidOutMax => 0x0D | .pidIntMin => 0x0E | .pidIntMax => 0x0F
  | .status => 0x10 | .hallState => 0x11 | .stallCnt => 0x12 | .invHallCnt => 0x13
  | .outDutyA => 0x14 | .outDutyB => 0x15 | .outDutyC => 0x16 | .outGate => 0x17
  | .stgDutyA => 0x18 | .stgDutyB => 0x19 | .stgDutyC => 0x1A | .stgGate => 0x1B
  | .hallIn => 0x1C | .lastErr => 0x1D | .faultCode => 0x1E
  | .pidMeasured => 0x20 | .pidError => 0x21 | .pidPrevError => 0x22 | .pidIntegral => 0x23 | .pidOut => 0x24
  | .svmState => 0x28 | .svmDutyA => 0x29 | .svmDutyB => 0x2A | .svmDutyC => 0x2B | .ovmErrCnt => 0x2C

/-- Every mapped register, in the order of the map. -/
def allRegs : List Reg :=
  [.mode, .dir, .stallThr, .pwmPeriod, .pulse, .pidRoute,
   .pidTarget, .pidKp, .pidKi, .pidKd, .pidOutMin, .pidOutMax, .pidIntMin, .pidIntMax,
   .status, .hallState, .stallCnt, .invHallCnt,
   .outDutyA, .outDutyB, .outDutyC, .outGate,
   .stgDutyA, .stgDutyB, .stgDutyC, .stgGate,
   .hallIn, .lastErr, .faultCode,
   .pidMeasured, .pidError, .pidPrevError, .pidIntegral, .pidOut,
   .svmState, .svmDutyA, .svmDutyB, .svmDutyC, .ovmErrCnt]

/-- The register a number names; none for an unmapped number (spec/10_state.md R65). -/
def regOfNumber (n : RegNum) : Option Reg := allRegs.find? (fun r => regNumber r == n)

/-- The access class of a register (spec/10_state.md R21). -/
def regAccess : Reg → Access
  | .mode => .rwGuarded
  | .dir | .stallThr | .pwmPeriod | .pulse | .pidRoute
  | .pidTarget | .pidKp | .pidKi | .pidKd | .pidOutMin | .pidOutMax | .pidIntMin | .pidIntMax
  | .invHallCnt | .ovmErrCnt => .rw
  | .status => .w1c
  | .hallIn => .volatileInput
  | .hallState | .stallCnt | .outDutyA | .outDutyB | .outDutyC | .outGate
  | .stgDutyA | .stgDutyB | .stgDutyC | .stgGate | .lastErr | .faultCode
  | .pidMeasured | .pidError | .pidPrevError | .pidIntegral | .pidOut
  | .svmState | .svmDutyA | .svmDutyB | .svmDutyC => .ro

/-- May `WR.REG` name this register?  (spec/44_register_access.md R191, R202) -/
def regWritable (r : Reg) : Bool :=
  match regAccess r with
  | .rw | .rwGuarded | .w1c => true
  | .ro | .volatileInput => false

/-- The width of a writable unsigned register, whose operand must have no bit above it; none for an `s32` register and for
`STATUS`, to which the width check does not apply (spec/44_register_access.md R191), and for a register no write reaches. -/
def regUnsignedWidth : Reg → Option Nat
  | .mode => some 2
  | .dir | .pidRoute => some 1
  | .stallThr | .pwmPeriod | .pulse | .invHallCnt | .ovmErrCnt => some 16
  | _ => none

/-- Does an operand of `WR.REG` pass the checks on its value (spec/60_exceptions.md R221, check 4): it fits the register's
unsigned width, and it is not 3 for `MODE`? -/
def regValueLegal (r : Reg) (val : Word) : Bool :=
  (match regUnsignedWidth r with
    | some n => decide (val.toNat < 2 ^ n)
    | none => true) && !(r == .mode && val.extractLsb' 0 2 == 3)

end Sys2Proof.Machine
end

