-- ==== Sys2Proof/Syntax.lean ====
section
/-! DEFINITION. The operations of spec/30_encoding.md R108 and the single-word pseudo-operations of R113: one constructor
per row of spec/opcode_table.json.  Operands are the encoded fields; what they mean is in Machine/Operands.lean. -/

namespace Sys2Proof

/-- One operation of `MCC-OPS 1`, or one of its single-word second spellings (the last twelve; spec/30_encoding.md R116:
their words decode to `wrReg` and `rdReg`). -/
inductive Instr where
  /-- `NOP` (R190) -/
  | nop
  /-- `HALL.COMM code` (R125) -/
  | hallComm (code : BitVec 3)
  /-- `HALL.TICK` (R128) -/
  | hallTick
  /-- `HALL.ARM` (R126) -/
  | hallArm
  /-- `HALL.STOP` (R127) -/
  | hallStop
  /-- `PID.UPDATE imm32` (R143) -/
  | pidUpdate (measured : Word)
  /-- `PID.RESET` (R144) -/
  | pidReset
  /-- `SVM.COMPUTE alpha, beta` (R160) -/
  | svmCompute (alpha beta : BitVec 16)
  /-- `WR.REG reg, val` (R191) -/
  | wrReg (reg : RegNum) (val : Word)
  /-- `RD.REG reg` (R192) -/
  | rdReg (reg : RegNum)
  /-- `CFG.MODE m` (R193) -/
  | cfgMode (val : Word)
  /-- `CFG.DIR d` (R194) -/
  | cfgDir (val : Word)
  /-- `CFG.STALLTHR n` (R195) -/
  | cfgStallthr (val : Word)
  /-- `CFG.PERIOD n` (R196) -/
  | cfgPeriod (val : Word)
  /-- `SET.PULSE n` (R197) -/
  | setPulse (val : Word)
  /-- `CFG.ROUTE b` (R198) -/
  | cfgRoute (val : Word)
  /-- `PID.TARGET v` (R199) -/
  | pidTarget (val : Word)
  /-- `PID.KP g` (R200) -/
  | pidKp (val : Word)
  /-- `PID.KI g` (R200) -/
  | pidKi (val : Word)
  /-- `PID.KD g` (R200) -/
  | pidKd (val : Word)
  /-- `CLR.FLAGS mask` (R204) -/
  | clrFlags (val : Word)
  /-- `RD.HALL` (R203) -/
  | rdHall
  deriving DecidableEq, Repr

end Sys2Proof
end

