-- ==== Sys2Proof/WellFormed.lean ====
section
/-! DEFINITION. Which operations are well formed: those whose operands pass the checks that need no state (checks 3 and 4 of
spec/60_exceptions.md R221).  Checks 1 and 2 of that rule cannot fail on an `Instr`: the decoder has made them.  An
operation that is not well formed still runs: it raises `OpError(2)` or `OpError(4)`. -/

namespace Sys2Proof
open Machine

/-- Is the operand of a write of register `r` legal: the register may be written and the value passes its checks? -/
def writeWf (r : Reg) (val : Word) : Bool := regWritable r && regValueLegal r val

/-- Well-formedness of an operation. -/
def Instr.wf : Instr → Bool
  | .nop | .hallComm _ | .hallTick | .hallArm | .hallStop | .pidUpdate _ | .pidReset | .svmCompute _ _ => true
  | .wrReg reg val => match regOfNumber reg with
    | some r => writeWf r val
    | none => false
  | .rdReg reg => (regOfNumber reg).isSome
  | .cfgMode val => writeWf .mode val
  | .cfgDir val => writeWf .dir val
  | .cfgStallthr val => writeWf .stallThr val
  | .cfgPeriod val => writeWf .pwmPeriod val
  | .setPulse val => writeWf .pulse val
  | .cfgRoute val => writeWf .pidRoute val
  | .pidTarget val => writeWf .pidTarget val
  | .pidKp val => writeWf .pidKp val
  | .pidKi val => writeWf .pidKi val
  | .pidKd val => writeWf .pidKd val
  | .clrFlags val => writeWf .status val
  | .rdHall => true

end Sys2Proof
end

