-- ==== Sys2Proof/Decode.lean ====
section
/-! DEFINITION. Decoding and encoding of operation words (spec/30_encoding.md R100 to R110, R113, R116), the expansions of
the pseudo-operations, and the serial order of a word (spec/20_memory.md R82). -/

namespace Sys2Proof

/-- Why a word is not an operation (spec/30_encoding.md R110 items a and b). -/
inductive DecodeError where
  /-- The opcode byte is reserved. -/
  | illegalOpcode
  /-- A must-be-zero operand bit of formats N, H or RR is 1. -/
  | illegalOperand
  deriving DecidableEq, Repr

/-- `OPC`, bits 39..32 of a word. -/
def opcodeOf (w : OpWord) : Opcode := w.extractLsb' 32 8

/-- `OPD`, bits 31..0 of a word. -/
def operandOf (w : OpWord) : Word := w.extractLsb' 0 32

/-- The word with a given opcode byte and operand. -/
def opWord (opc : Opcode) (opd : Word) : OpWord := opc ++ opd

/-- Formats N and RR (spec/30_encoding.md R102, R106): the operand must be 0. -/
def zeroOperand (i : Instr) (opd : Word) : Except DecodeError Instr :=
  if opd = 0 then .ok i else .error .illegalOperand

/-- Format H (spec/30_encoding.md R103): bits 31..3 of the operand must be 0. -/
def decodeHall (opd : Word) : Except DecodeError Instr :=
  if opd.extractLsb' 3 29 = 0 then .ok (.hallComm (opd.extractLsb' 0 3)) else .error .illegalOperand

/-- Opcode bytes below 0x80 (spec/30_encoding.md R108, R110 item a). -/
def decodeEngine (opc : Opcode) (opd : Word) : Except DecodeError Instr :=
  if opc = 0x00 then zeroOperand .nop opd
  else if opc = 0x01 then decodeHall opd
  else if opc = 0x02 then zeroOperand .hallTick opd
  else if opc = 0x03 then zeroOperand .hallArm opd
  else if opc = 0x04 then zeroOperand .hallStop opd
  else if opc = 0x10 then .ok (.pidUpdate opd)
  else if opc = 0x11 then zeroOperand .pidReset opd
  else if opc = 0x20 then .ok (.svmCompute (opd.extractLsb' 16 16) (opd.extractLsb' 0 16))
  else .error .illegalOpcode

/-- The decoder: total on all 2^40 words (spec/30_encoding.md R101).  It uses the ten rows that are instructions
(R116), so it never answers one of the twelve pseudo-operations. -/
def decode (w : OpWord) : Except DecodeError Instr :=
  let opc := opcodeOf w
  let opd := operandOf w
  let reg : RegNum := opc.extractLsb' 0 6
  if opc.extractLsb' 6 2 = 0b10#2 then .ok (.wrReg reg opd)
  else if opc.extractLsb' 6 2 = 0b11#2 then zeroOperand (.rdReg reg) opd
  else decodeEngine opc opd

/-- The opcode byte of a write of register `n` (spec/30_encoding.md R105). -/
def wrOpcode (n : RegNum) : Opcode := 0b10#2 ++ n

/-- The opcode byte of a read of register `n` (spec/30_encoding.md R106). -/
def rdOpcode (n : RegNum) : Opcode := 0b11#2 ++ n

/-- The opcode byte of an operation (spec/30_encoding.md R108, R113). -/
def Instr.opcode : Instr → Opcode
  | .nop => 0x00
  | .hallComm _ => 0x01
  | .hallTick => 0x02
  | .hallArm => 0x03
  | .hallStop => 0x04
  | .pidUpdate _ => 0x10
  | .pidReset => 0x11
  | .svmCompute _ _ => 0x20
  | .wrReg reg _ => wrOpcode reg
  | .rdReg reg => rdOpcode reg
  | .cfgMode _ => 0x80
  | .cfgDir _ => 0x81
  | .cfgStallthr _ => 0x82
  | .cfgPeriod _ => 0x83
  | .setPulse _ => 0x84
  | .cfgRoute _ => 0x85
  | .pidTarget _ => 0x88
  | .pidKp _ => 0x89
  | .pidKi _ => 0x8A
  | .pidKd _ => 0x8B
  | .clrFlags _ => 0x90
  | .rdHall => 0xDC

/-- The operand of an operation's word (spec/30_encoding.md R102 to R107). -/
def Instr.operand : Instr → Word
  | .nop | .hallTick | .hallArm | .hallStop | .pidReset | .rdReg _ | .rdHall => 0
  | .hallComm code => 0#29 ++ code
  | .pidUpdate measured => measured
  | .svmCompute alpha beta => alpha ++ beta
  | .wrReg _ val | .cfgMode val | .cfgDir val | .cfgStallthr val | .cfgPeriod val | .setPulse val | .cfgRoute val
  | .pidTarget val | .pidKp val | .pidKi val | .pidKd val | .clrFlags val => val

/-- The encoder: the word of an operation. -/
def encode (i : Instr) : OpWord := opWord i.opcode i.operand

/-- The core operation a spelling stands for (spec/30_encoding.md R113): itself, for the ten operations. -/
def Instr.core : Instr → Instr
  | .nop => .nop
  | .hallComm code => .hallComm code
  | .hallTick => .hallTick
  | .hallArm => .hallArm
  | .hallStop => .hallStop
  | .pidUpdate measured => .pidUpdate measured
  | .pidReset => .pidReset
  | .svmCompute alpha beta => .svmCompute alpha beta
  | .wrReg reg val => .wrReg reg val
  | .rdReg reg => .rdReg reg
  | .cfgMode val => .wrReg 0x00 val
  | .cfgDir val => .wrReg 0x01 val
  | .cfgStallthr val => .wrReg 0x02 val
  | .cfgPeriod val => .wrReg 0x03 val
  | .setPulse val => .wrReg 0x04 val
  | .cfgRoute val => .wrReg 0x05 val
  | .pidTarget val => .wrReg 0x08 val
  | .pidKp val => .wrReg 0x09 val
  | .pidKi val => .wrReg 0x0A val
  | .pidKd val => .wrReg 0x0B val
  | .clrFlags val => .wrReg 0x10 val
  | .rdHall => .rdReg 0x1C

/-- The pseudo-operations of spec/30_encoding.md R113 that are no rows of the opcode table. -/
inductive Pseudo where
  | pidOutlim (lo hi : Word)
  | pidIntlim (lo hi : Word)
  | rd (reg : Machine.Reg)
  | commutate (code : BitVec 3) (d : Word)
  | restart
  deriving DecidableEq, Repr

/-- The operations such a pseudo-operation stands for, in order (spec/30_encoding.md R113). -/
def Pseudo.expand : Pseudo → List Instr
  | .pidOutlim lo hi => [.wrReg 0x0C lo, .wrReg 0x0D hi]
  | .pidIntlim lo hi => [.wrReg 0x0E lo, .wrReg 0x0F hi]
  | .rd reg => [.rdReg (Machine.regNumber reg)]
  | .commutate code d => [.wrReg 0x01 d, .hallComm code]
  | .restart => [.pidReset, .hallArm]

/-- The row of spec/opcode_table.json an operation belongs to. -/
def Instr.mnemonic : Instr → String
  | .nop => "NOP"
  | .hallComm _ => "HALL.COMM"
  | .hallTick => "HALL.TICK"
  | .hallArm => "HALL.ARM"
  | .hallStop => "HALL.STOP"
  | .pidUpdate _ => "PID.UPDATE"
  | .pidReset => "PID.RESET"
  | .svmCompute _ _ => "SVM.COMPUTE"
  | .wrReg _ _ => "WR.REG"
  | .rdReg _ => "RD.REG"
  | .cfgMode _ => "CFG.MODE"
  | .cfgDir _ => "CFG.DIR"
  | .cfgStallthr _ => "CFG.STALLTHR"
  | .cfgPeriod _ => "CFG.PERIOD"
  | .setPulse _ => "SET.PULSE"
  | .cfgRoute _ => "CFG.ROUTE"
  | .pidTarget _ => "PID.TARGET"
  | .pidKp _ => "PID.KP"
  | .pidKi _ => "PID.KI"
  | .pidKd _ => "PID.KD"
  | .clrFlags _ => "CLR.FLAGS"
  | .rdHall => "RD.HALL"

/-- One row of the opcode map of spec/30_encoding.md R108: a word selects it when `w &&& mask = pattern`. -/
structure OpcodeRow where
  mnemonic : String
  pattern : OpWord
  mask : OpWord
  deriving DecidableEq, Repr

/-- The ten rows that are instructions. -/
def opcodeRows : List OpcodeRow :=
  [⟨"NOP", 0x0000000000, 0xFFFFFFFFFF⟩, ⟨"HALL.COMM", 0x0100000000, 0xFFFFFFFFF8⟩,
   ⟨"HALL.TICK", 0x0200000000, 0xFFFFFFFFFF⟩, ⟨"HALL.ARM", 0x0300000000, 0xFFFFFFFFFF⟩,
   ⟨"HALL.STOP", 0x0400000000, 0xFFFFFFFFFF⟩, ⟨"PID.UPDATE", 0x1000000000, 0xFF00000000⟩,
   ⟨"PID.RESET", 0x1100000000, 0xFFFFFFFFFF⟩, ⟨"SVM.COMPUTE", 0x2000000000, 0xFF00000000⟩,
   ⟨"WR.REG", 0x8000000000, 0xC000000000⟩, ⟨"RD.REG", 0xC000000000, 0xC0FFFFFFFF⟩]

/-- Does a word select a row? -/
def OpcodeRow.selects (r : OpcodeRow) (w : OpWord) : Bool := w &&& r.mask == r.pattern

/-- A word as a platform with a byte-wide channel sends it: the most significant byte, the opcode, first
(spec/20_memory.md R82). -/
def serialBytes (w : OpWord) : List (BitVec 8) :=
  [w.extractLsb' 32 8, w.extractLsb' 24 8, w.extractLsb' 16 8, w.extractLsb' 8 8, w.extractLsb' 0 8]

/-- The word five such bytes carry; none for any other number of bytes. -/
def wordOfSerial : List (BitVec 8) → Option OpWord
  | [b4, b3, b2, b1, b0] => some (b4 ++ b3 ++ b2 ++ b1 ++ b0)
  | _ => none

/-- The word whose low `nbits` bits are those of `w` and whose other bits are 0. -/
def tableWord (nbits w : Nat) : OpWord := BitVec.ofNat 40 (w % 2 ^ nbits)

/-- What the decoder reads from a word given as the opcode table numbers its bits. -/
def decodeTableWord (nbits w : Nat) : Option Instr :=
  match decode (tableWord nbits w) with
  | .ok i => some i
  | .error _ => none

end Sys2Proof
end

