-- ==== Sys2Proof/Config.lean ====
section
/-! DEFINITION. The configuration record of spec/00_scope.md R6, its well-formedness R7, the fixed constants, and the one
record the machine is built with: a constant without a body, so that nothing can be proved of it but what holds of every
record. -/

namespace Sys2Proof

/-- The three phases; their indices are 0, 1, 2 (spec/00_scope.md R11). -/
inductive Phase where
  | a
  | b
  | c
  deriving DecidableEq, Repr, Inhabited

namespace Config

/-! ### The fixed constants of spec/00_scope.md R6 -/

/-- Fixed-point 1.0 and the full period of the dwell times. -/
def one : Int := 32768

/-- Full scale of the internal duty domain. -/
def dutyFull : Int := 65536

/-- round(32768 / sqrt 3). -/
def invSqrt3 : Int := 18919

/-- round(32768 * pi / 6). -/
def piDiv6 : Int := 17157

/-- round(32768 * 3 / pi). -/
def threeDivPi : Int := 31291

/-- `PI_DIV_6 - 1`, the largest effective gamma. -/
def gammaMax : Int := 17156

/-- Entries of the over-modulation gain table. -/
abbrev gainLutSize : Nat := 192

/-- Entries of the gamma table. -/
abbrev gammaLutSize : Nat := 100

/-- Reset value of the stall threshold. -/
def stallThrReset : BitVec 16 := 2

end Config

/-- The parameters of spec/00_scope.md R6.  The four tables are the constant spaces (2) to (5) of spec/20_memory.md R80;
the widths of their entries (item d of R7) are in the types.  `STEP_PATTERN` is read only at the indices 1..6. -/
structure Cfg where
  /-- `VREF_M1_START`: lowest `vref` of OVM_MODE_1. -/
  vrefM1Start : Int
  /-- `VREF_M2_START`: lowest `vref` of OVM_MODE_2. -/
  vrefM2Start : Int
  /-- `VREF_M2_END`: lowest `vref` of ERROR. -/
  vrefM2End : Int
  /-- `VREF_IDX_STEP`. -/
  vrefIdxStep : Int
  /-- `GAMMA_IDX_OFFSET`. -/
  gammaIdxOffset : Int
  /-- `GAIN_LUT[0..191]`. -/
  gainLut : Fin Config.gainLutSize → BitVec 16
  /-- `GAMMA_LUT[0..99]`. -/
  gammaLut : Fin Config.gammaLutSize → BitVec 16
  /-- `HALL_STEP_MAP[dir][code]`. -/
  hallStepMap : BitVec 1 → BitVec 3 → BitVec 3
  /-- `STEP_PATTERN[step]`: the driven phase and the freewheel phase. -/
  stepPattern : BitVec 3 → Phase × Phase
  /-- `STALL_TICK_PERIOD`; no rule reads it (spec/70_reset_and_hazards.md R258). -/
  stallTickPeriod : Nat
  /-- `PWM_TICK_PERIOD`; no rule reads it. -/
  pwmTickPeriod : Nat
  /-- `PID_TICK_PERIOD`; no rule reads it. -/
  pidTickPeriod : Nat
  /-- `LAT_MAX`; no rule reads it. -/
  latMax : Nat
  deriving Inhabited

namespace Config

/-- The numbers 1..6: the valid Hall codes and the steps. -/
def oneToSix : List (BitVec 3) := [1, 2, 3, 4, 5, 6]

/-- Item (a) of spec/00_scope.md R7: the thresholds are in order and the index step is positive. -/
abbrev ThresholdsOk (c : Cfg) : Prop :=
  0 < c.vrefM1Start ∧ c.vrefM1Start ≤ c.vrefM2Start ∧ c.vrefM2Start ≤ c.vrefM2End ∧
    c.vrefM2End ≤ 46341 ∧ 1 ≤ c.vrefIdxStep

/-- Items (b) and (c) of spec/00_scope.md R7: every index computed from a `vref` below ERROR is inside its table. -/
abbrev IndicesOk (c : Cfg) : Prop :=
  Int.tdiv (c.vrefM2End - 1 - c.vrefM1Start) c.vrefIdxStep ≤ 191 ∧
    Int.tdiv (c.vrefM2End - 1 - c.vrefM1Start) c.vrefIdxStep - c.gammaIdxOffset ≤ 99 ∧
      0 ≤ c.gammaIdxOffset

/-- Item (e) of spec/00_scope.md R7 for one direction: codes 0 and 7 map to 0, codes 1..6 map one-to-one onto 1..6. -/
abbrev HallMapOk (m : BitVec 3 → BitVec 3) : Prop :=
  m 0 = 0 ∧ m 7 = 0 ∧ (∀ code ∈ oneToSix, m code ∈ oneToSix) ∧ (oneToSix.map m).Nodup

/-- Item (f) of spec/00_scope.md R7: in each step the two phases differ, and the six pairs are pairwise different. -/
abbrev PatternOk (p : BitVec 3 → Phase × Phase) : Prop :=
  (∀ s ∈ oneToSix, (p s).1 ≠ (p s).2) ∧ (oneToSix.map p).Nodup

/-- `WF(Cfg)`, spec/00_scope.md R7 (item d holds by the types of the tables). -/
abbrev WF (c : Cfg) : Prop :=
  ThresholdsOk c ∧ IndicesOk c ∧ HallMapOk (c.hallStepMap 0) ∧ HallMapOk (c.hallStepMap 1) ∧
    PatternOk c.stepPattern

/-- The default `HALL_STEP_MAP` of spec/41_hall_commutation.md R123. -/
def defaultHallStepMap (dir : BitVec 1) (code : BitVec 3) : BitVec 3 :=
  if dir = 0 then
    match code.toNat with
    | 1 => 2 | 2 => 4 | 3 => 3 | 4 => 6 | 5 => 1 | 6 => 5 | _ => 0
  else
    match code.toNat with
    | 1 => 5 | 2 => 1 | 3 => 6 | 4 => 3 | 5 => 4 | 6 => 2 | _ => 0

/-- The default `STEP_PATTERN` of spec/41_hall_commutation.md R124 (the entries at 0 and 7 are never read). -/
def defaultStepPattern (s : BitVec 3) : Phase × Phase :=
  match s.toNat with
  | 1 => (.a, .b) | 2 => (.a, .c) | 3 => (.b, .c) | 4 => (.b, .a) | 5 => (.c, .a) | 6 => (.c, .b)
  | _ => (.a, .b)

/-- The instance the test vectors of spec/95_test_vectors.md and spec/96_test_vectors_svm.md use: the default parameters
of spec/00_scope.md R6 and the synthetic tables of 95 section 2.3.1.
PRESUMED (spec/93_implementation_defined.md G1 to G6: from general knowledge, not in source); log entry 4.  The spec gives
the last four fields no default (R6 "none"; OPEN in spec/92_eei_decisions.md): each is 1 here, DESIGN CHOICE, log entry 13;
no rule reads them.  It is the value of nothing but the tests and of a choice that is not well formed. -/
def sample : Cfg where
  vrefM1Start := 29717
  vrefM2Start := 31186
  vrefM2End := 32768
  vrefIdxStep := 16
  gammaIdxOffset := 92
  gainLut := fun i => BitVec.ofNat 16 (31291 + 6 * i.val)
  gammaLut := fun j => BitVec.ofNat 16 (170 * j.val)
  hallStepMap := defaultHallStepMap
  stepPattern := defaultStepPattern
  stallTickPeriod := 1
  pwmTickPeriod := 1
  pidTickPeriod := 1
  latMax := 1

/-- The record an implementation is built with: OPEN (spec/92_eei_decisions.md D5, D8, D9, D24, D25), so a constant without
a body.  Log entry 4. -/
opaque chosen : Cfg

end Config
end Sys2Proof
end

