-- ==== Sys2Proof/Machine/State.lean ====
section
/-! DEFINITION. The machine's state: every register of spec/10_state.md R21, and the step's input and output, which
spec/00_scope.md R8 makes an argument and a result of the step (log entries 1, 3 and 5).  Plain data. -/

namespace Sys2Proof.Machine

/-- The configuration registers, written by the host (spec/10_state.md R25 to R38). -/
structure HostRegs where
  /-- `MODE`: 0 OFF, 1 SIXSTEP, 2 SVM; 3 is never stored (R25). -/
  mode : BitVec 2
  /-- `DIR`: 0 forward, 1 reverse (R26). -/
  dir : BitVec 1
  /-- `STALL_THR` (R27). -/
  stallThr : BitVec 16
  /-- `PWM_PERIOD` (R28). -/
  pwmPeriod : BitVec 16
  /-- `PULSE`; `PID.UPDATE` writes it too when `PID_ROUTE` is 1 (R29). -/
  pulse : BitVec 16
  /-- `PID_ROUTE` (R30). -/
  pidRoute : BitVec 1
  /-- `PID_TARGET`, s32 (R31). -/
  pidTarget : BitVec 32
  /-- `PID_KP`, s32 read as Q16.16 (R32). -/
  pidKp : BitVec 32
  /-- `PID_KI`, s32 read as Q16.16 (R33). -/
  pidKi : BitVec 32
  /-- `PID_KD`, s32 read as Q16.16 (R34). -/
  pidKd : BitVec 32
  /-- `PID_OUT_MIN`, s32 (R35). -/
  pidOutMin : BitVec 32
  /-- `PID_OUT_MAX`, s32 (R36). -/
  pidOutMax : BitVec 32
  /-- `PID_INT_MIN`, s32 (R37). -/
  pidIntMin : BitVec 32
  /-- `PID_INT_MAX`, s32 (R38). -/
  pidIntMax : BitVec 32
  deriving DecidableEq, Repr

/-- The seven flags of `STATUS` (spec/10_state.md R39). -/
structure Status where
  /-- bit 0 `HALL_EN` (R40) -/
  hallEn : Bool
  /-- bit 1 `FAULT_STALL` (R41) -/
  faultStall : Bool
  /-- bit 2 `INV_HALL` (R42) -/
  invHall : Bool
  /-- bit 3 `OVM_ERR` (R43) -/
  ovmErr : Bool
  /-- bit 4 `OP_ERR` (R44) -/
  opErr : Bool
  /-- bit 5 `PID_OUT_SAT` (R45) -/
  pidOutSat : Bool
  /-- bit 6 `PID_INT_SAT` (R46) -/
  pidIntSat : Bool
  deriving DecidableEq, Repr

/-- The registers of the Hall commutation engine (spec/10_state.md R47 to R49, R56). -/
structure HallRegs where
  /-- `HALL_STATE.STEP` (R47). -/
  step : BitVec 3
  /-- `HALL_STATE.HALL_LAST` (R47). -/
  hallLast : BitVec 3
  /-- `STALL_CNT` (R48). -/
  stallCnt : BitVec 16
  /-- `INV_HALL_CNT` (R49). -/
  invHallCnt : BitVec 16
  /-- `FAULT_CODE` (R56). -/
  faultCode : BitVec 4
  deriving DecidableEq, Repr

/-- One bank of outputs: the DutyTriple and the GateEnablePattern, gate bit 0 phase A (spec/10_state.md R50 to R53). -/
structure Bank where
  dutyA : BitVec 16
  dutyB : BitVec 16
  dutyC : BitVec 16
  gate : BitVec 3
  deriving DecidableEq, Repr

/-- `LAST_ERR` (spec/10_state.md R55). -/
structure LastErr where
  /-- `ERR_CODE` -/
  code : BitVec 3
  /-- `ERR_OPCODE` -/
  opcode : BitVec 8
  deriving DecidableEq, Repr

/-- The data registers of the regulator, s32 each (spec/10_state.md R57 to R61). -/
structure PidRegs where
  /-- `PID_MEASURED` (R57). -/
  measured : BitVec 32
  /-- `PID_ERROR` (R58). -/
  error : BitVec 32
  /-- `PID_PREV_ERROR` (R59). -/
  prevError : BitVec 32
  /-- `PID_INTEGRAL` (R60). -/
  integral : BitVec 32
  /-- `PID_OUT` (R61). -/
  out : BitVec 32
  deriving DecidableEq, Repr

/-- The data registers of the modulator (spec/10_state.md R62 to R64). -/
structure SvmRegs where
  /-- `SVM_STATE.SECTOR` (R62). -/
  sector : BitVec 3
  /-- `SVM_STATE.REGIME` (R62). -/
  regime : BitVec 2
  /-- `SVM_STATE.VREF` (R62). -/
  vref : BitVec 16
  /-- `SVM_DUTY_A` (R63). -/
  dutyA : BitVec 17
  /-- `SVM_DUTY_B` (R63). -/
  dutyB : BitVec 17
  /-- `SVM_DUTY_C` (R63). -/
  dutyC : BitVec 17
  /-- `OVM_ERR_CNT` (R64). -/
  ovmErrCnt : BitVec 16
  deriving DecidableEq, Repr

/-- An output event of one operation (spec/00_scope.md R8, R11). -/
inductive Event where
  /-- `emit commit` (spec/41_hall_commutation.md R122). -/
  | commit
  /-- `emit fault(code)` (spec/60_exceptions.md R228). -/
  | fault (code : BitVec 4)
  deriving DecidableEq, Repr

/-- The response word of an operation (spec/30_encoding.md R111). -/
structure Response where
  err : BitVec 3
  data : BitVec 32
  deriving DecidableEq, Repr

/-- One operation of the stream: its word, and the level on the Hall pins while it executes, which the environment chooses
(spec/10_state.md R24, R54). -/
structure Issue where
  word : OpWord
  hallIn : BitVec 3
  deriving DecidableEq, Repr

/-- The state of the machine. -/
structure State where
  /-- configuration registers -/
  host : HostRegs
  /-- `STATUS` -/
  status : Status
  /-- registers of the Hall commutation engine -/
  hall : HallRegs
  /-- the committed bank `OUT_*` -/
  out : Bank
  /-- the staged bank `STG_*` -/
  stg : Bank
  /-- `LAST_ERR` -/
  lastErr : LastErr
  /-- data registers of the regulator -/
  pid : PidRegs
  /-- data registers of the modulator -/
  svm : SvmRegs
  /-- The MODEL's own field: the Hall pins during the present operation, which `HALL_IN` reads (R54; log entry 5). -/
  hallIn : BitVec 3
  /-- The MODEL's own field: the operations still to be issued, in order (R24; log entry 1). -/
  stream : List Issue
  /-- The MODEL's own field: the response of the last step, none when it executed no operation (log entry 3). -/
  resp : Option Response
  /-- The MODEL's own field: the events of the last step, in order (log entry 3). -/
  events : List Event
  deriving DecidableEq, Repr

/-- Why a step could stop with a fault: nothing does.  "every 40-bit word in every reachable state gives a next state and a
response" (spec/70_reset_and_hazards.md R257); the spec's own errors and its terminal fault are next states
(spec/60_exceptions.md R211, R227).  No constructor, so raised by nobody: safe. -/
inductive Fault : Type
  deriving DecidableEq, Repr

/-- Why an operation could be refused without a meaning. -/
inductive Refusal where
  /-- Raised only by an arm of `exec` for an operation that has no meaning yet; no arm is left that raises it.  Safe. -/
  | notModelled (mnemonic : String)
  deriving DecidableEq, Repr

/-- All duties zero and all gate enables false: the "safe (OFF) state" (spec/00_scope.md R13). -/
def Bank.off : Bank := ⟨0, 0, 0, 0⟩

/-- The machine right after hardware reset (spec/70_reset_and_hazards.md R240, R241).  The last four fields are the
model's own: DESIGN CHOICE, log entries 1, 3 and 5. -/
def State.reset : State where
  host :=
    { mode := 0, dir := 0, stallThr := Config.stallThrReset, pwmPeriod := 0, pulse := 0, pidRoute := 0
      pidTarget := 0, pidKp := 0, pidKi := 0, pidKd := 0
      pidOutMin := 0x80000000, pidOutMax := 0x7FFFFFFF, pidIntMin := 0x80000000, pidIntMax := 0x7FFFFFFF }
  status :=
    { hallEn := false, faultStall := false, invHall := false, ovmErr := false, opErr := false
      pidOutSat := false, pidIntSat := false }
  hall := { step := 0, hallLast := 0, stallCnt := 0, invHallCnt := 0, faultCode := 0 }
  out := Bank.off
  stg := Bank.off
  lastErr := { code := 0, opcode := 0 }
  pid := { measured := 0, error := 0, prevError := 0, integral := 0, out := 0 }
  svm := { sector := 0, regime := 0, vref := 0, dutyA := 0, dutyB := 0, dutyC := 0, ovmErrCnt := 0 }
  hallIn := 0
  stream := []
  resp := none
  events := []

end Sys2Proof.Machine
end

