-- ==== Sys2Proof/Machine/Ops.lean ====
section
/-! DEFINITION. The operations the meanings share: the response, the stage and commit primitives, raising an operation
error, entering and leaving the terminal fault, fetching the next operation, and the configuration in force. -/

namespace Sys2Proof.Machine

/-- The configuration record in force: the implementation's choice where it is well formed.  "The model is defined only for
well-formed records" (spec/00_scope.md R7), so a choice that is not well formed never becomes the configuration.
DESIGN CHOICE, log entry 4. -/
def machineCfg : Cfg := if Config.WF Config.chosen then Config.chosen else Config.sample

/-- `respond(v)` (spec/00_scope.md R11): an OK response with data `v` (spec/30_encoding.md R111). -/
def respond (v : Word) (s : State) : State := { s with resp := some ⟨0, v⟩ }

/-- `emit e` (spec/00_scope.md R11). -/
def emit (e : Event) (s : State) : State := { s with events := s.events ++ [e] }

/-- `Stage` (spec/41_hall_commutation.md R122). -/
def stage (b : Bank) (s : State) : State := { s with stg := b }

/-- `Commit()`: the staged bank becomes the committed one as one update, with one event (R122). -/
def commit (s : State) : State := emit .commit { s with out := s.stg }

/-- `ForceOff()`: `Stage(0, 0, 0, 0)` then `Commit()` (R122). -/
def forceOff (s : State) : State := commit (stage Bank.off s)

/-- The four operation errors (spec/60_exceptions.md R210). -/
inductive OpErr where
  | illegalOpcode
  | illegalOperand
  | wrongMode
  | badRegister
  deriving DecidableEq, Repr

/-- The code of an operation error (R210). -/
def opErrCode : OpErr → BitVec 3
  | .illegalOpcode => 1
  | .illegalOperand => 2
  | .wrongMode => 3
  | .badRegister => 4

/-- The error a word that is no operation raises (spec/30_encoding.md R110). -/
def opErrOfDecode : DecodeError → OpErr
  | .illegalOpcode => .illegalOpcode
  | .illegalOperand => .illegalOperand

/-- `raise OpError(code)` (spec/60_exceptions.md R211): the one way an operation is refused.  `opc` is the opcode byte of
its word.  Nothing else changes, and control goes nowhere: the next operation executes normally. -/
def raiseOpError (opc : Opcode) (e : OpErr) (s : State) : State :=
  { s with
    status.opErr := true
    lastErr := { code := opErrCode e, opcode := opc }
    resp := some ⟨opErrCode e, 0⟩ }

/-- The code of the stall fault, `STALL_TIMEOUT` (spec/60_exceptions.md R213). -/
def stallTimeout : BitVec 4 := 1

/-- `raise Fault(1)`: the entry to the terminal fault (spec/60_exceptions.md R227).  Nothing is saved; `STALL_CNT` keeps
the value that crossed the threshold. -/
def enterFault (s : State) : State :=
  let off := forceOff { s with status.hallEn := false }
  emit (.fault stallTimeout)
    { off with
      hall.step := 0
      hall.hallLast := 0
      status.faultStall := true
      hall.faultCode := stallTimeout }

/-- The one way out of FAULTED other than reset, and the way to ARMED (spec/41_hall_commutation.md R126,
spec/60_exceptions.md R229).  It restores nothing, because nothing was saved. -/
def rearm (s : State) : State :=
  { s with
    status.faultStall := false
    hall.faultCode := 0
    hall.stallCnt := 0
    status.hallEn := true }

/-- A state with nothing on the response port and no event yet: where each step starts. -/
def clearOutputs (s : State) : State := { s with resp := none, events := [] }

/-- The next operation of the stream and the state in which it executes: the operation is taken from the stream and the
Hall pins carry the level that came with it.  None when no operation is offered. -/
def fetchOp (s : State) : Option (OpWord × State) :=
  match s.stream with
  | [] => none
  | op :: rest => some (op.word, { clearOutputs s with stream := rest, hallIn := op.hallIn })

end Sys2Proof.Machine
end

