-- ==== Sys2Proof/Machine/Hall.lean ====
section
/-! DEFINITION. The Hall commutation engine (spec/41_hall_commutation.md): `HALL.COMM`, `HALL.TICK`, `HALL.ARM`,
`HALL.STOP`, and `NOP` (spec/44_register_access.md R190). -/

namespace Sys2Proof.Machine

/-- The gate-enable pattern with the bit of one phase set (spec/10_state.md R51). -/
def gateBit : Phase → BitVec 3
  | .a => 0b001
  | .b => 0b010
  | .c => 0b100

/-- The outputs of one step of the six-step sequence: the driven phase has duty `d`, the freewheel phase its low-side gate,
everything else is zero (spec/41_hall_commutation.md R120, R125). -/
def patternBank (driven freewheel : Phase) (d : BitVec 16) : Bank where
  dutyA := if driven = .a then d else 0
  dutyB := if driven = .b then d else 0
  dutyC := if driven = .c then d else 0
  gate := gateBit freewheel

/-- `min(PULSE, PWM_PERIOD)`: the live duty (R125). -/
def liveDuty (h : HostRegs) : BitVec 16 := if h.pulse ≤ h.pwmPeriod then h.pulse else h.pwmPeriod

/-- An accepted `HALL.COMM` with code 0 or 7: recorded, and nothing else (R125). -/
def invalidCode (s : State) : State :=
  respond (s.hall.step.setWidth 32)
    { s with status.invHall := true, hall.invHallCnt := satU16Inc s.hall.invHallCnt }

/-- A commutation event: step `st` is staged and committed, the stall count starts anew (R125). -/
def commutate (c : Cfg) (code st : BitVec 3) (s : State) : State :=
  let pattern := c.stepPattern st
  let committed := commit (stage (patternBank pattern.1 pattern.2 (liveDuty s.host)) s)
  respond (st.setWidth 32)
    { committed with hall.stallCnt := 0, hall.step := st, hall.hallLast := code }

/-- `HALL.COMM code` under a configuration (R125). -/
def hallComm (c : Cfg) (code : BitVec 3) (s : State) : State :=
  if !s.status.hallEn then respond (s.hall.step.setWidth 32) s
  else if code = 0 ∨ code = 7 then invalidCode s
  else commutate c code (c.hallStepMap s.host.dir code) s

/-- `NOP` (spec/44_register_access.md R190). -/
def execNop (s : State) : Host.Outcome State Fault Refusal := .next (respond 0 s)

/-- `HALL.COMM code` (spec/41_hall_commutation.md R125). -/
def execHallComm (code : BitVec 3) (s : State) : Host.Outcome State Fault Refusal :=
  .next (hallComm machineCfg code s)

/-- `HALL.TICK` (R128): increment, then compare. -/
def execHallTick (s : State) : Host.Outcome State Fault Refusal :=
  if !s.status.hallEn then .next (respond 0 s)
  else
    let cnt := satU16Inc s.hall.stallCnt
    let counted : State := { s with hall.stallCnt := cnt }
    if s.host.stallThr < cnt then .next (respond 0 (enterFault counted))
    else .next (respond 0 counted)

/-- `HALL.ARM` (R126): legal only in `MODE = 1`. -/
def execHallArm (s : State) : Host.Outcome State Fault Refusal :=
  if s.host.mode = 1 then .next (respond 0 (rearm s))
  else .next (raiseOpError 0x03 .wrongMode s)

/-- `HALL.STOP` (R127): `FAULT_STALL` and `FAULT_CODE` are not changed. -/
def execHallStop (s : State) : Host.Outcome State Fault Refusal :=
  let off := forceOff { s with status.hallEn := false }
  .next (respond 0 { off with hall.step := 0, hall.hallLast := 0, hall.stallCnt := 0 })

end Sys2Proof.Machine
end

