-- ==== Sys2Proof/Machine/Flags.lean ====
section
/-! DEFINITION. The flags: the word `STATUS` reads as (spec/10_state.md R39), write-one-to-clear
(spec/44_register_access.md R204), and the two saturation flags (spec/42_pid.md R143). -/

namespace Sys2Proof.Machine

/-- `STATUS` as a 32-bit word: bit 0 `HALL_EN` up to bit 6 `PID_INT_SAT`, the rest zero. -/
def statusWord (f : Status) : Word :=
  0#25 ++ BitVec.ofBool f.pidIntSat ++ BitVec.ofBool f.pidOutSat ++ BitVec.ofBool f.opErr ++
    BitVec.ofBool f.ovmErr ++ BitVec.ofBool f.invHall ++ BitVec.ofBool f.faultStall ++ BitVec.ofBool f.hallEn

/-- A write of `STATUS`: each of bits 2, 3, 4 that is 1 clears its sticky flag; every other bit is ignored. -/
def clearFlags (val : Word) (f : Status) : Status :=
  { f with
    invHall := f.invHall && !val.getLsbD 2
    ovmErr := f.ovmErr && !val.getLsbD 3
    opErr := f.opErr && !val.getLsbD 4 }

/-- The two flags every `PID.UPDATE` rewrites: did the clamp change the value? -/
def satFlags (i0 i1 raw out : Int) (f : Status) : Status :=
  { f with pidIntSat := decide (i0 ≠ i1), pidOutSat := decide (raw ≠ out) }

end Sys2Proof.Machine
end

