-- ==== Sys2Proof/Machine/Pid.lean ====
section
/-! DEFINITION. The PID regulator (spec/42_pid.md): `PID.UPDATE` and `PID.RESET`. -/

namespace Sys2Proof.Machine

/-- Every value one update computes, as exact integers (spec/42_pid.md R141, R143). -/
structure PidStep where
  e : Int
  i0 : Int
  i1 : Int
  d : Int
  acc : Int
  raw : Int
  out : Int
  deriving DecidableEq, Repr

/-- One update: the arithmetic of R143.  The scale of the Q16.16 gains is removed once, after the sum (R141). -/
def pidStep (h : HostRegs) (p : PidRegs) (m : Int) : PidStep :=
  let e := satS32 (toS32 h.pidTarget - m)
  let i0 := toS32 p.integral + e
  let i1 := clamp i0 (toS32 h.pidIntMin) (toS32 h.pidIntMax)
  let d := e - toS32 p.prevError
  let acc := toS32 h.pidKp * e + toS32 h.pidKi * i1 + toS32 h.pidKd * d
  let raw := asr acc 16
  { e := e, i0 := i0, i1 := i1, d := d, acc := acc, raw := raw
    out := clamp raw (toS32 h.pidOutMin) (toS32 h.pidOutMax) }

/-- `PULSE` after an update: the output clamped to 0..`PWM_PERIOD` when `PID_ROUTE` is 1 (R143). -/
def routedPulse (h : HostRegs) (out : Int) : BitVec 16 :=
  if h.pidRoute = 1 then BitVec.ofInt 16 (clamp out 0 h.pwmPeriod.toNat) else h.pulse

/-- `PID.UPDATE measured` (R143). -/
def execPidUpdate (measured : Word) (s : State) : Host.Outcome State Fault Refusal :=
  let r := pidStep s.host s.pid (toS32 measured)
  .next (respond (toU32 r.out)
    { s with
      pid := { measured := measured, error := toU32 r.e, prevError := toU32 r.e
               integral := toU32 r.i1, out := toU32 r.out }
      status := satFlags r.i0 r.i1 r.raw r.out s.status
      host.pulse := routedPulse s.host r.out })

/-- `PID.RESET` (R144). -/
def execPidReset (s : State) : Host.Outcome State Fault Refusal :=
  .next (respond 0 { s with pid.integral := 0, pid.prevError := 0 })

end Sys2Proof.Machine
end

