-- ==== Sys2Proof/Machine/Operands.lean ====
section
/-! DEFINITION. What `RD.REG` returns for each register (spec/10_state.md R21, spec/44_register_access.md R192) and what
`WR.REG` stores in each (spec/44_register_access.md R194 to R201, R204, R205). -/

namespace Sys2Proof.Machine

/-- `HALL_STATE` as `{zero[25:0], HALL_LAST[2:0], STEP[2:0]}` (spec/44_register_access.md R192). -/
def hallStateWord (h : HallRegs) : Word := 0#26 ++ h.hallLast ++ h.step

/-- `LAST_ERR` as `{zero[15:0], ERR_OPCODE[7:0], zero[4:0], ERR_CODE[2:0]}`. -/
def lastErrWord (e : LastErr) : Word := 0#16 ++ e.opcode ++ 0#5 ++ e.code

/-- `SVM_STATE` as `{VREF[15:0], zero[10:0], REGIME[1:0], SECTOR[2:0]}`. -/
def svmStateWord (v : SvmRegs) : Word := v.vref ++ 0#11 ++ v.regime ++ v.sector

/-- The 32-bit word a register reads as: an unsigned field narrower than 32 bits is zero-extended, an s32 register is its
two's-complement word. -/
def readReg (r : Reg) (s : State) : Word :=
  match r with
  | .mode => s.host.mode.setWidth 32
  | .dir => s.host.dir.setWidth 32
  | .stallThr => s.host.stallThr.setWidth 32
  | .pwmPeriod => s.host.pwmPeriod.setWidth 32
  | .pulse => s.host.pulse.setWidth 32
  | .pidRoute => s.host.pidRoute.setWidth 32
  | .pidTarget => s.host.pidTarget
  | .pidKp => s.host.pidKp
  | .pidKi => s.host.pidKi
  | .pidKd => s.host.pidKd
  | .pidOutMin => s.host.pidOutMin
  | .pidOutMax => s.host.pidOutMax
  | .pidIntMin => s.host.pidIntMin
  | .pidIntMax => s.host.pidIntMax
  | .status => statusWord s.status
  | .hallState => hallStateWord s.hall
  | .stallCnt => s.hall.stallCnt.setWidth 32
  | .invHallCnt => s.hall.invHallCnt.setWidth 32
  | .outDutyA => s.out.dutyA.setWidth 32
  | .outDutyB => s.out.dutyB.setWidth 32
  | .outDutyC => s.out.dutyC.setWidth 32
  | .outGate => s.out.gate.setWidth 32
  | .stgDutyA => s.stg.dutyA.setWidth 32
  | .stgDutyB => s.stg.dutyB.setWidth 32
  | .stgDutyC => s.stg.dutyC.setWidth 32
  | .stgGate => s.stg.gate.setWidth 32
  | .hallIn => s.hallIn.setWidth 32
  | .lastErr => lastErrWord s.lastErr
  | .faultCode => s.hall.faultCode.setWidth 32
  | .pidMeasured => s.pid.measured
  | .pidError => s.pid.error
  | .pidPrevError => s.pid.prevError
  | .pidIntegral => s.pid.integral
  | .pidOut => s.pid.out
  | .svmState => svmStateWord s.svm
  | .svmDutyA => s.svm.dutyA.setWidth 32
  | .svmDutyB => s.svm.dutyB.setWidth 32
  | .svmDutyC => s.svm.dutyC.setWidth 32
  | .ovmErrCnt => s.svm.ovmErrCnt.setWidth 32

/-- What a write that passed every check stores, the outputs apart: the register takes the legal part of the operand.  No
write reaches a read-only register (spec/44_register_access.md R202), so those arms store nothing. -/
def storeReg (r : Reg) (val : Word) (s : State) : State :=
  match r with
  | .mode => { s with host.mode := val.setWidth 2 }
  | .dir => { s with host.dir := val.setWidth 1 }
  | .stallThr => { s with host.stallThr := val.setWidth 16 }
  | .pwmPeriod => { s with host.pwmPeriod := val.setWidth 16 }
  | .pulse => { s with host.pulse := val.setWidth 16 }
  | .pidRoute => { s with host.pidRoute := val.setWidth 1 }
  | .pidTarget => { s with host.pidTarget := val }
  | .pidKp => { s with host.pidKp := val }
  | .pidKi => { s with host.pidKi := val }
  | .pidKd => { s with host.pidKd := val }
  | .pidOutMin => { s with host.pidOutMin := val }
  | .pidOutMax => { s with host.pidOutMax := val }
  | .pidIntMin => { s with host.pidIntMin := val }
  | .pidIntMax => { s with host.pidIntMax := val }
  | .status => { s with status := clearFlags val s.status }
  | .invHallCnt => { s with hall.invHallCnt := val.setWidth 16 }
  | .ovmErrCnt => { s with svm.ovmErrCnt := val.setWidth 16 }
  | .hallState | .stallCnt | .outDutyA | .outDutyB | .outDutyC | .outGate
  | .stgDutyA | .stgDutyB | .stgDutyC | .stgGate | .hallIn | .lastErr | .faultCode
  | .pidMeasured | .pidError | .pidPrevError | .pidIntegral | .pidOut
  | .svmState | .svmDutyA | .svmDutyB | .svmDutyC => s

end Sys2Proof.Machine
end

