-- ==== Sys2Proof/Machine/RegAccess.lean ====
section
/-! DEFINITION. Register access (spec/44_register_access.md): `WR.REG` and `RD.REG`. -/

namespace Sys2Proof.Machine

/-- A write that passed every check: the register's own write rule (R193 to R205).  A write of `MODE` also forces the
outputs OFF (R193). -/
def acceptWrite (r : Reg) (val : Word) (s : State) : State :=
  respond 0 (if r = .mode then forceOff (storeReg r val s) else storeReg r val s)

/-- A write of a mapped register, with the checks of R191 in their order.  `opc` is the opcode byte of the word. -/
def writeReg (opc : Opcode) (r : Reg) (val : Word) (s : State) : State :=
  if !regWritable r then raiseOpError opc .badRegister s
  else if !regValueLegal r val then raiseOpError opc .illegalOperand s
  else if r = .mode ∧ s.status.hallEn then raiseOpError opc .wrongMode s
  else acceptWrite r val s

/-- `WR.REG reg, val` (R191). -/
def execWrReg (reg : RegNum) (val : Word) (s : State) : Host.Outcome State Fault Refusal :=
  match regOfNumber reg with
  | none => .next (raiseOpError (wrOpcode reg) .badRegister s)
  | some r => .next (writeReg (wrOpcode reg) r val s)

/-- `RD.REG reg` (R192): no state changes. -/
def execRdReg (reg : RegNum) (s : State) : Host.Outcome State Fault Refusal :=
  match regOfNumber reg with
  | none => .next (raiseOpError (rdOpcode reg) .badRegister s)
  | some r => .next (respond (readReg r s) s)

end Sys2Proof.Machine
end

