-- ==== Sys2Proof/Machine/PseudoOps.lean ====
section
/-! DEFINITION. The twelve single-word pseudo-operations of spec/30_encoding.md R113: each is one `WR.REG` or `RD.REG` with
the opcode byte R113 gives it. -/

namespace Sys2Proof.Machine

/-- `CFG.MODE m` is `WR.REG MODE, m` (spec/44_register_access.md R193). -/
def execCfgMode (val : Word) (s : State) : Host.Outcome State Fault Refusal := .next (writeReg 0x80 .mode val s)

/-- `CFG.DIR d` is `WR.REG DIR, d` (R194). -/
def execCfgDir (val : Word) (s : State) : Host.Outcome State Fault Refusal := .next (writeReg 0x81 .dir val s)

/-- `CFG.STALLTHR n` is `WR.REG STALL_THR, n` (R195). -/
def execCfgStallthr (val : Word) (s : State) : Host.Outcome State Fault Refusal := .next (writeReg 0x82 .stallThr val s)

/-- `CFG.PERIOD n` is `WR.REG PWM_PERIOD, n` (R196). -/
def execCfgPeriod (val : Word) (s : State) : Host.Outcome State Fault Refusal := .next (writeReg 0x83 .pwmPeriod val s)

/-- `SET.PULSE n` is `WR.REG PULSE, n` (R197). -/
def execSetPulse (val : Word) (s : State) : Host.Outcome State Fault Refusal := .next (writeReg 0x84 .pulse val s)

/-- `CFG.ROUTE b` is `WR.REG PID_ROUTE, b` (R198). -/
def execCfgRoute (val : Word) (s : State) : Host.Outcome State Fault Refusal := .next (writeReg 0x85 .pidRoute val s)

/-- `PID.TARGET v` is `WR.REG PID_TARGET, v` (R199). -/
def execPidTarget (val : Word) (s : State) : Host.Outcome State Fault Refusal := .next (writeReg 0x88 .pidTarget val s)

/-- `PID.KP g` is `WR.REG PID_KP, g` (R200). -/
def execPidKp (val : Word) (s : State) : Host.Outcome State Fault Refusal := .next (writeReg 0x89 .pidKp val s)

/-- `PID.KI g` is `WR.REG PID_KI, g` (R200). -/
def execPidKi (val : Word) (s : State) : Host.Outcome State Fault Refusal := .next (writeReg 0x8A .pidKi val s)

/-- `PID.KD g` is `WR.REG PID_KD, g` (R200). -/
def execPidKd (val : Word) (s : State) : Host.Outcome State Fault Refusal := .next (writeReg 0x8B .pidKd val s)

/-- `CLR.FLAGS mask` is `WR.REG STATUS, mask` (R204). -/
def execClrFlags (val : Word) (s : State) : Host.Outcome State Fault Refusal := .next (writeReg 0x90 .status val s)

/-- `RD.HALL` is `RD.REG HALL_IN` (R203). -/
def execRdHall (s : State) : Host.Outcome State Fault Refusal := .next (respond (readReg .hallIn s) s)

end Sys2Proof.Machine
end

