-- ==== Sys2Proof/Machine/Svm.lean ====
section
/-! DEFINITION. The space-vector modulator with over-modulation and the duty projector (spec/43_svm_ovm.md):
`SVM.COMPUTE`, one function per step of the pipeline of R160, in exact integers (spec/00_scope.md R10). -/

namespace Sys2Proof.Machine
open Config

/-- The four regimes (spec/43_svm_ovm.md R164). -/
inductive Regime where
  | linear
  | ovmMode1
  | ovmMode2
  | error
  deriving DecidableEq, Repr

/-- The code of a regime (spec/10_state.md R62). -/
def regimeCode : Regime → BitVec 2
  | .linear => 0
  | .ovmMode1 => 1
  | .ovmMode2 => 2
  | .error => 3

/-- The six sectors (R169, R170). -/
inductive Sector where
  | s1 | s2 | s3 | s4 | s5 | s6
  deriving DecidableEq, Repr

/-- The number of a sector. -/
def sectorCode : Sector → BitVec 3
  | .s1 => 1 | .s2 => 2 | .s3 => 3 | .s4 => 4 | .s5 => 5 | .s6 => 6

/-- `Magnitude`: the floor of the exact square root (R163). -/
def magnitude (alpha beta : Int) : Int := isqrt (alpha * alpha + beta * beta).toNat

/-- `Classify`: every lower bound is inclusive (R164). -/
def classify (c : Cfg) (vref : Int) : Regime :=
  if vref < c.vrefM1Start then .linear
  else if vref < c.vrefM2Start then .ovmMode1
  else if vref < c.vrefM2End then .ovmMode2
  else .error

/-- The gain index (R165).  It is inside the table when the record is well formed and the regime is an OVM one. -/
def gainIndex (c : Cfg) (vref : Int) : Int := tdiv (vref - c.vrefM1Start) c.vrefIdxStep

/-- The gain: the entry exactly as stored, no interpolation (R165; spec/20_memory.md R92). -/
def gain (c : Cfg) (vref : Int) : Int :=
  (c.gainLut (Fin.ofNat gainLutSize (gainIndex c vref).toNat)).toNat

/-- The gamma index, clamped at the table's low end (R166). -/
def gammaIndex (c : Cfg) (vref : Int) : Int := max (gainIndex c vref - c.gammaIdxOffset) 0

/-- The gamma: read in OVM_MODE_2 only, 0 in the other regimes (R166). -/
def gamma (c : Cfg) (vref : Int) (r : Regime) : Int :=
  match r with
  | .ovmMode2 => (c.gammaLut (Fin.ofNat gammaLutSize (gammaIndex c vref).toNat)).toNat
  | .linear | .ovmMode1 | .error => 0

/-- One component of `Correct` (R167). -/
def correct (c : Cfg) (vref : Int) (r : Regime) (x : Int) : Int :=
  match r with
  | .linear => x
  | .ovmMode1 | .ovmMode2 => tdiv (x * gain c vref) one
  | .error => 0

/-- The three axis quantities. -/
structure Axes where
  x : Int
  y : Int
  z : Int
  deriving DecidableEq, Repr

/-- `n`, the one rounded term of the projection (R168). -/
def axisTerm (bc : Int) : Int := tdiv ((-bc) * invSqrt3) one

/-- `Project`: one rounded term, so that X = Y + Z holds exactly (R168). -/
def project (ac bc : Int) : Axes :=
  { x := 2 * axisTerm bc, y := ac + axisTerm bc, z := -ac + axisTerm bc }

/-- `SectorOf`: the decision tree of R169. -/
def sectorOf (v : Axes) : Sector :=
  if v.y < 0 then
    if v.z < 0 then .s5 else if v.x ≤ 0 then .s4 else .s3
  else
    if 0 ≤ v.z then .s2 else if v.x ≤ 0 then .s6 else .s1

/-- A pair of dwell times. -/
structure Dwell where
  t1 : Int
  t2 : Int
  deriving DecidableEq, Repr

/-- `RawDwell`: one formula per sector (R171). -/
def rawDwell (sec : Sector) (v : Axes) : Dwell :=
  match sec with
  | .s1 => ⟨-v.z, v.x⟩
  | .s2 => ⟨v.z, v.y⟩
  | .s3 => ⟨v.x, -v.y⟩
  | .s4 => ⟨-v.x, v.z⟩
  | .s5 => ⟨-v.y, -v.z⟩
  | .s6 => ⟨v.y, -v.x⟩

/-- `Redistribute` in LINEAR and OVM_MODE_1: rescale to the hexagon edge when the sum exceeds a period (R173). -/
def rescale (t : Dwell) : Dwell :=
  let s := t.t1 + t.t2
  if one < s then
    let t1 := tdiv (t.t1 * one) s
    ⟨t1, one - t1⟩
  else t

/-- `t`, the share of T1 on the hexagon edge (R176). -/
def edgeShare (t : Dwell) : Int := tdiv (t.t1 * one) (t.t1 + t.t2)

/-- `gm`, the gamma in effect: an entry above `GAMMA_MAX` is clamped to it (R176). -/
def effectiveGamma (gam : Int) : Int := clamp gam 0 gammaMax

/-- `off`, the offset `gm * 3 / pi` (R176). -/
def holdOffset (gm : Int) : Int := tdiv (threeDivPi * gm) one

/-- `Redistribute` in OVM_MODE_2 (R176). -/
def reshape (t : Dwell) (gam : Int) : Dwell :=
  if t.t1 + t.t2 = 0 then ⟨0, 0⟩
  else
    let gm := effectiveGamma gam
    let t2 := max (edgeShare t - holdOffset gm) 0
    let t1 := min (tdiv (t2 * piDiv6) (piDiv6 - gm)) one
    ⟨t1, one - t1⟩

/-- `Redistribute` (R173, R174, R176). -/
def redistribute (r : Regime) (t : Dwell) (gam : Int) : Dwell :=
  match r with
  | .linear | .ovmMode1 => rescale t
  | .ovmMode2 => reshape t gam
  | .error => ⟨0, 0⟩

/-- The three ordered duty levels. -/
structure Levels where
  lo : Int
  mid : Int
  hi : Int
  deriving DecidableEq, Repr

/-- `Levels` (R177). -/
def levels (t : Dwell) : Levels :=
  { lo := one - t.t1 - t.t2, mid := one - t.t1 + t.t2, hi := one + t.t1 + t.t2 }

/-- Three duties, one per phase. -/
structure Duties where
  a : Int
  b : Int
  c : Int
  deriving DecidableEq, Repr

/-- `Assign`: the sector's fixed assignment (R178). -/
def assign (sec : Sector) (l : Levels) : Duties :=
  match sec with
  | .s1 => ⟨l.hi, l.mid, l.lo⟩
  | .s2 => ⟨l.mid, l.hi, l.lo⟩
  | .s3 => ⟨l.lo, l.hi, l.mid⟩
  | .s4 => ⟨l.lo, l.mid, l.hi⟩
  | .s5 => ⟨l.mid, l.lo, l.hi⟩
  | .s6 => ⟨l.hi, l.lo, l.mid⟩

/-- `Scale` of one duty: from the internal domain to compare counts (R181). -/
def scaleDuty (period duty : Int) : Int := tdiv (period * duty) dutyFull

/-- Every value the pipeline computes before scaling. -/
structure SvmStep where
  vref : Int
  regime : Regime
  gam : Int
  ac : Int
  bc : Int
  axes : Axes
  sector : Sector
  raw : Dwell
  dwell : Dwell
  levels : Levels
  duties : Duties
  deriving DecidableEq, Repr

/-- Steps 1 to 7 of the pipeline of R160: a function of the command and the configuration only (R162). -/
def svmStep (c : Cfg) (alpha beta : Int) : SvmStep :=
  let vref := magnitude alpha beta
  let regime := classify c vref
  let gam := gamma c vref regime
  let ac := correct c vref regime alpha
  let bc := correct c vref regime beta
  let axes := project ac bc
  let sector := sectorOf axes
  let raw := rawDwell sector axes
  let dwell := redistribute regime raw gam
  let lv := levels dwell
  { vref := vref, regime := regime, gam := gam, ac := ac, bc := bc, axes := axes, sector := sector
    raw := raw, dwell := dwell, levels := lv, duties := assign sector lv }

/-- The compare counts of three duties under a period; the gate enables are 0 in space-vector mode (R181, R182). -/
def scaledBank (period : BitVec 16) (d : Duties) : Bank where
  dutyA := BitVec.ofInt 16 (scaleDuty period.toNat d.a)
  dutyB := BitVec.ofInt 16 (scaleDuty period.toNat d.b)
  dutyC := BitVec.ofInt 16 (scaleDuty period.toNat d.c)
  gate := 0

/-- The result registers (R182): the count of over-range commands goes up in the ERROR regime only. -/
def svmResults (r : SvmStep) (v : SvmRegs) : SvmRegs where
  sector := sectorCode r.sector
  regime := regimeCode r.regime
  vref := BitVec.ofInt 16 r.vref
  dutyA := BitVec.ofInt 17 r.duties.a
  dutyB := BitVec.ofInt 17 r.duties.b
  dutyC := BitVec.ofInt 17 r.duties.c
  ovmErrCnt := if r.regime = .error then satU16Inc v.ovmErrCnt else v.ovmErrCnt

/-- The response data `{zero[26:0], REGIME[1:0], SECTOR[2:0]}` (spec/30_encoding.md R111). -/
def svmResponse (r : SvmStep) : Word := 0#27 ++ regimeCode r.regime ++ sectorCode r.sector

/-- The results of an accepted `SVM.COMPUTE`, written together (R182). -/
def svmFinish (r : SvmStep) (s : State) : State :=
  let written : State :=
    { s with svm := svmResults r s.svm, status.ovmErr := s.status.ovmErr || decide (r.regime = .error) }
  respond (svmResponse r) (commit (stage (scaledBank s.host.pwmPeriod r.duties) written))

/-- `SVM.COMPUTE` under a configuration (R160): legal only in `MODE = 2`.  It reads `MODE` and no flag: of the flags
operations read `HALL_EN` "and nothing else" (spec/10_state.md R39), and while FAULTED, "after a `MODE` write to 2", it "still
works normally" (spec/60_exceptions.md R229); against R66 item g, see log entry 7. -/
def svmCompute (c : Cfg) (alpha beta : BitVec 16) (s : State) : State :=
  if s.host.mode = 2 then svmFinish (svmStep c (toS16 alpha) (toS16 beta)) s
  else raiseOpError 0x20 .wrongMode s

/-- `SVM.COMPUTE alpha, beta` (spec/43_svm_ovm.md R160). -/
def execSvmCompute (alpha beta : BitVec 16) (s : State) : Host.Outcome State Fault Refusal :=
  .next (svmCompute machineCfg alpha beta s)

end Sys2Proof.Machine
end

