-- ==== Sys2Proof/Machine/Dispatch.lean ====
section
/-! DEFINITION. The dispatch of an operation to its meaning: one arm per constructor of `Instr`. -/

namespace Sys2Proof.Machine

def exec (i : Instr) (s : State) : Host.Outcome State Fault Refusal :=
  match i with
  | .nop => Sys2Proof.Machine.execNop s
  | .hallComm code => Sys2Proof.Machine.execHallComm code s
  | .hallTick => Sys2Proof.Machine.execHallTick s
  | .hallArm => Sys2Proof.Machine.execHallArm s
  | .hallStop => Sys2Proof.Machine.execHallStop s
  | .pidUpdate measured => Sys2Proof.Machine.execPidUpdate measured s
  | .pidReset => Sys2Proof.Machine.execPidReset s
  | .svmCompute alpha beta => Sys2Proof.Machine.execSvmCompute alpha beta s
  | .wrReg reg val => Sys2Proof.Machine.execWrReg reg val s
  | .rdReg reg => Sys2Proof.Machine.execRdReg reg s
  | .cfgMode val => Sys2Proof.Machine.execCfgMode val s
  | .cfgDir val => Sys2Proof.Machine.execCfgDir val s
  | .cfgStallthr val => Sys2Proof.Machine.execCfgStallthr val s
  | .cfgPeriod val => Sys2Proof.Machine.execCfgPeriod val s
  | .setPulse val => Sys2Proof.Machine.execSetPulse val s
  | .cfgRoute val => Sys2Proof.Machine.execCfgRoute val s
  | .pidTarget val => Sys2Proof.Machine.execPidTarget val s
  | .pidKp val => Sys2Proof.Machine.execPidKp val s
  | .pidKi val => Sys2Proof.Machine.execPidKi val s
  | .pidKd val => Sys2Proof.Machine.execPidKd val s
  | .clrFlags val => Sys2Proof.Machine.execClrFlags val s
  | .rdHall => Sys2Proof.Machine.execRdHall s

end Sys2Proof.Machine
end

