-- ==== Sys2Proof/Machine/Step.lean ====
section
/-! DEFINITION. One step (spec/00_scope.md R8): the next operation of the stream is decoded and executed; a word that is no
operation raises its error (spec/30_encoding.md R110). -/

namespace Sys2Proof.Machine

/-- One step.  With no operation offered the machine "is idle and holds its state" (spec/60_exceptions.md R234; log
entry 2). -/
def step (s : State) : Host.Outcome State Fault Refusal :=
  match fetchOp s with
  | none => .next (clearOutputs s)
  | some (w, s') =>
    match decode w with
    | .ok i => exec i s'
    | .error e => .next (raiseOpError (opcodeOf w) (opErrOfDecode e) s')

/-- The state with an operation word offered as the very next one, the Hall pins as they are (log entry 1). -/
def State.withFetchWord (s : State) (nbits w : Nat) : State :=
  { s with stream := ⟨tableWord nbits w, s.hallIn⟩ :: s.stream }

end Sys2Proof.Machine
end

