-- ==== Sys2Proof/Machine/FrontEnd.lean ====
section
/-! DEFINITION. The transport around the core: the ports (spec/60_exceptions.md R232, spec/10_state.md R72) and the event
front end (spec/60_exceptions.md R220, R222 to R226, spec/10_state.md R71).  "The operation-level model does not contain
these latches": they stand in a layer of their own, and `step` reads none of this (log entry 8). -/

namespace Sys2Proof.Machine

/-- The output ports of R232 that mirror registers and events. -/
structure Ports where
  pwmDutyA : BitVec 16
  pwmDutyB : BitVec 16
  pwmDutyC : BitVec 16
  gateEn : BitVec 3
  commitStb : Bool
  svmSector : BitVec 3
  pidOut : BitVec 32
  fault : Bool
  faultStb : Bool
  faultCode : BitVec 4
  respValid : Bool
  respErr : BitVec 3
  respData : BitVec 32
  deriving DecidableEq, Repr

/-- The response word `RESP`, bits 34..32 the error and 31..0 the data (spec/30_encoding.md R111). -/
def respWord (r : Response) : BitVec 35 := r.err ++ r.data

/-- What the ports show after a step: no port has state of its own (spec/10_state.md R72).  The spec does not say what
`resp_err` and `resp_data` show while there is no response: 0 here, DESIGN CHOICE, log entry 19. -/
def State.ports (s : State) : Ports where
  pwmDutyA := s.out.dutyA
  pwmDutyB := s.out.dutyB
  pwmDutyC := s.out.dutyC
  gateEn := s.out.gate
  commitStb := s.events.contains .commit
  svmSector := s.svm.sector
  pidOut := s.pid.out
  fault := s.status.faultStall
  faultStb := s.events.contains (.fault stallTimeout)
  faultCode := s.hall.faultCode
  respValid := s.resp.isSome
  respErr := (s.resp.getD ⟨0, 0⟩).err
  respData := (s.resp.getD ⟨0, 0⟩).data

/-- The input pins of R232 that the front end samples. -/
structure Pins where
  hallIn : BitVec 3
  tickStall : Bool
  tickPwm : Bool
  tickPid : Bool
  valphaIn : BitVec 16
  vbetaIn : BitVec 16
  pidMeasIn : BitVec 32
  deriving DecidableEq, Repr

/-- The four event sources of R222. -/
inductive Source where
  | hall
  | stallTick
  | pwmTick
  | pidTick
  deriving DecidableEq, Repr

/-- The pending latches of spec/10_state.md R71. -/
structure Latches where
  pendHall : Bool
  pendStallTick : Bool
  pendPwmTick : Bool
  pendPidTick : Bool
  deriving DecidableEq, Repr

/-- Column "enabled when" of R222. -/
def sourceEnabled (src : Source) (s : State) : Bool :=
  match src with
  | .hall | .stallTick => s.status.hallEn
  | .pwmTick => s.host.mode == 2
  | .pidTick => true

/-- Column "event" of R222, between two clock samples of the pins. -/
def sourceEvent (src : Source) (before now : Pins) : Bool :=
  match src with
  | .hall => before.hallIn != now.hallIn
  | .stallTick => !before.tickStall && now.tickStall
  | .pwmTick => !before.tickPwm && now.tickPwm
  | .pidTick => !before.tickPid && now.tickPid

/-- The latch of a source. -/
def pending (src : Source) (l : Latches) : Bool :=
  match src with
  | .hall => l.pendHall
  | .stallTick => l.pendStallTick
  | .pwmTick => l.pendPwmTick
  | .pidTick => l.pendPidTick

/-- While a source is not enabled its latch is held clear (R223, R224, R226). -/
def holdClear (s : State) (l : Latches) : Latches where
  pendHall := l.pendHall && sourceEnabled .hall s
  pendStallTick := l.pendStallTick && sourceEnabled .stallTick s
  pendPwmTick := l.pendPwmTick && sourceEnabled .pwmTick s
  pendPidTick := l.pendPidTick && sourceEnabled .pidTick s

/-- One clock sample: an event sets its latch, a second event of a pending source is merged (R71, R222). -/
def observe (before now : Pins) (s : State) (l : Latches) : Latches :=
  holdClear s
    { pendHall := l.pendHall || sourceEvent .hall before now
      pendStallTick := l.pendStallTick || sourceEvent .stallTick before now
      pendPwmTick := l.pendPwmTick || sourceEvent .pwmTick before now
      pendPidTick := l.pendPidTick || sourceEvent .pidTick before now }

/-- The latches with one cleared. -/
def clearLatch (src : Source) (l : Latches) : Latches :=
  match src with
  | .hall => { l with pendHall := false }
  | .stallTick => { l with pendStallTick := false }
  | .pwmTick => { l with pendPwmTick := false }
  | .pidTick => { l with pendPidTick := false }

/-- Columns "operation issued" and "operand sampled" of R222: the operand is sampled at the moment of issue. -/
def sourceOp (src : Source) (now : Pins) : Instr :=
  match src with
  | .hall => .hallComm now.hallIn
  | .stallTick => .hallTick
  | .pwmTick => .svmCompute now.valphaIn now.vbetaIn
  | .pidTick => .pidUpdate now.pidMeasIn

/-- The core and its front end. -/
structure Platform where
  core : State
  latches : Latches
  pins : Pins
  /-- Did the operation port issue the last operation?  The front end discards the response of its own (R222). -/
  hostOp : Bool
  deriving DecidableEq, Repr

/-- What can happen at the platform's boundary.  Which source arbitration serves next is the environment's choice:
`ARB_POLICY` is open and every order is allowed (R220). -/
inductive PlatformInput where
  /-- a clock sample of the pins -/
  | clock (now : Pins)
  /-- arbitration selects a source -/
  | serve (src : Source)
  /-- arbitration selects the operation port, with the word on it -/
  | hostOp (w : OpWord)
  /-- Hardware reset (spec/70_reset_and_hazards.md R240).  The spec does not say which sample of the pins the first edge
  after it is compared with: the last one before it, DESIGN CHOICE, log entry 20. -/
  | reset
  deriving DecidableEq, Repr

/-- What the ports of the platform show: the response strobe is "one per accepted host operation" (R232).  The spec does
not say what `resp_err` and `resp_data` show while the strobe is 0: after an operation of the front end they keep its
discarded response, DESIGN CHOICE, log entry 19. -/
def Platform.ports (p : Platform) : Ports :=
  { p.core.ports with respValid := p.core.ports.respValid && p.hostOp }

/-- Issue one operation to the core, ahead of nothing else, and let it execute. -/
def issueOp (w : OpWord) (p : Platform) (l : Latches) (hostOp : Bool) : Option Platform :=
  match step { p.core with stream := [⟨w, p.pins.hallIn⟩] } with
  | .next s => some { p with core := s, latches := holdClear s l, hostOp := hostOp }
  | .fault _ => none
  | .refused _ => none

/-- The front end after hardware reset: every latch clear (R240). -/
def clearLatches : Latches := ⟨false, false, false, false⟩

/-- One step of the platform.  None where nothing can be served: the source has nothing pending or is masked.  A clock
sample ends the strobes of the operation before it. -/
def platformStep (inp : PlatformInput) (p : Platform) : Option Platform :=
  match inp with
  | .clock now =>
    some { core := clearOutputs p.core, latches := observe p.pins now p.core p.latches, pins := now, hostOp := false }
  | .serve src =>
    if sourceEnabled src p.core && pending src p.latches then
      issueOp (encode (sourceOp src p.pins)) p (clearLatch src p.latches) false
    else none
  | .hostOp w => issueOp w p p.latches true
  | .reset => some { p with core := State.reset, latches := clearLatches, hostOp := false }

end Sys2Proof.Machine
end

