-- ==== Sys2Proof/Safety.lean ====
section
/-! DEFINITION. What counts as a safe state of the MCC: the invariants of spec/10_state.md R66, and the terms in which the
statements speak of the outputs, of a refused operation and of a run of ticks. -/

namespace Sys2Proof.Machine

/-- The duty of one phase. -/
def Bank.duty (b : Bank) : Phase → BitVec 16
  | .a => b.dutyA
  | .b => b.dutyB
  | .c => b.dutyC

/-- The low-side gate enable of one phase: bit 0 phase A, bit 1 phase B, bit 2 phase C (spec/10_state.md R51). -/
def Bank.gateOn (b : Bank) : Phase → Bool
  | .a => b.gate.getLsbD 0
  | .b => b.gate.getLsbD 1
  | .c => b.gate.getLsbD 2

/-- Item (e) of R66: at most one phase driven, at most one gate on, never on the driven phase. -/
structure Bank.SixStep (b : Bank) : Prop where
  oneDriven : ∀ p q, b.duty p ≠ 0 → b.duty q ≠ 0 → p = q
  oneGate : ∀ p q, b.gateOn p = true → b.gateOn q = true → p = q
  apart : ∀ p, b.duty p ≠ 0 → b.gateOn p = false

/-- The invariants of spec/10_state.md R66 that need no history (item d needs one: `StallBounded`), and the legal values of
R25, R47, R55, R56, R62, R63.  Item g is stated as far as the operations' rules bear it out: "While FAULTED every operation
other than the Hall engine's still works normally: … and, after a `MODE` write to 2, `SVM.COMPUTE`"
(spec/60_exceptions.md R229), and no operation
but a register read depends on `FAULT_STALL` (spec/10_state.md R39, spec/43_svm_ovm.md R160, R162); log entry 7. -/
structure Inv (s : State) : Prop where
  /-- R66 item a -/
  armed : s.status.hallEn = true → s.host.mode = 1 ∧ s.status.faultStall = false
  /-- R66 item b -/
  banks : s.stg = s.out
  /-- R66 item c, first half -/
  stepCode : s.hall.step = 0 ↔ s.hall.hallLast = 0
  /-- R66 item c, second half -/
  stepZero : s.status.hallEn = false ∨ s.host.mode ≠ 1 → s.hall.step = 0
  /-- R66 item e -/
  sixStep : s.host.mode = 1 → s.out.SixStep
  /-- R66 item f -/
  gateOff : s.host.mode ≠ 1 → s.out.gate = 0
  /-- R66 item g, the record -/
  faultCode : s.status.faultStall = true ↔ s.hall.faultCode = 1
  /-- R66 item g, the outputs -/
  faulted : s.status.faultStall = true →
    s.status.hallEn = false ∧ s.out.gate = 0 ∧ (s.host.mode ≠ 2 → s.out = Bank.off)
  /-- R47: the outputs are held OFF while `STEP = 0`, but for the modulator's in `MODE = 2` -/
  heldOff : s.host.mode ≠ 2 → s.hall.step = 0 → s.out = Bank.off
  /-- R25: the value 3 is never stored -/
  modeLegal : s.host.mode ≠ 3
  /-- R47: `STEP` and `HALL_LAST` are never 7 -/
  stepLegal : s.hall.step ≠ 7 ∧ s.hall.hallLast ≠ 7
  /-- R55, R210: the recorded error code is one of 0..4 -/
  errLegal : s.lastErr.code.toNat ≤ 4
  /-- R56: values 2..15 are never produced -/
  faultLegal : s.hall.faultCode.toNat ≤ 1
  /-- R62: `SECTOR` value 7 never occurs, `VREF` is in 0..46340 -/
  svmLegal : s.svm.sector ≠ 7 ∧ s.svm.vref.toNat ≤ 46340
  /-- R63: each is in 0..65536 -/
  svmDuties : s.svm.dutyA.toNat ≤ 65536 ∧ s.svm.dutyB.toNat ≤ 65536 ∧ s.svm.dutyC.toNat ≤ 65536

/-- Item (d) of R66 at one operation boundary. -/
def StallBounded (s : State) : Prop := s.status.hallEn = true → s.hall.stallCnt ≤ s.host.stallThr

/-- `t` is `s` with the records of an operation error and nothing else changed (spec/60_exceptions.md R211). -/
def OpErrorOnly (opc : Opcode) (code : BitVec 3) (s t : State) : Prop :=
  t = { s with
    status.opErr := true
    lastErr := { code := code, opcode := opc }
    resp := some ⟨code, 0⟩ }

/-- `k` operations `HALL.TICK` in a row; none where one does not answer a next state. -/
def runTicks : Nat → State → Option State
  | 0, s => some s
  | k + 1, s =>
    match exec .hallTick s with
    | .next s' => runTicks k s'
    | .fault _ => none
    | .refused _ => none

/-- The number of fault reports among some events. -/
def faultReports (es : List Event) : Nat := es.countP (fun e => e != .commit)

/-- A run is safe so far when every boundary of it is: what the theorems about runs conclude. -/
def SafeState (s : State) : Prop := Inv s ∧ StallBounded s

end Sys2Proof.Machine
end

