-- ==== Sys2Proof/Certificates/Slice0/Obligations.lean ====
section
/-! DEFINITION. The statements for the provers.  Each docstring names the rule of spec/ it formalises. -/

open Sys2Proof
open Sys2Proof.Machine

/-! ### Encoding -/

/-- Decoding an encoded operation gives it back, the second spellings as the operation they stand for
(spec/30_encoding.md R102 to R109, R113, R116).  No operand is assumed legal. -/
def Obligations.DecodeOfEncode : Prop := ∀ i : Instr, decode (encode i) = .ok i.core

/-- Every word that decodes is the encoding of what it decodes to, and never a second spelling
(spec/30_encoding.md R101, R116). -/
def Obligations.EncodeOfDecode : Prop :=
  ∀ (w : OpWord) (i : Instr), decode w = .ok i → encode i = w ∧ i.core = i

/-- The opcode map (spec/30_encoding.md R108): a word decodes exactly when it selects a row by `W & mask = match`; the row
is the only one it selects, and is the row of the operation it decodes to. -/
def Obligations.DecodeFollowsOpcodeMap : Prop :=
  (∀ (w : OpWord) (i : Instr), decode w = .ok i →
    ∃ r ∈ opcodeRows, r.mnemonic = i.mnemonic ∧ r.selects w = true ∧
      ∀ r' ∈ opcodeRows, r'.selects w = true → r' = r) ∧
  (∀ (w : OpWord), ∀ r ∈ opcodeRows, r.selects w = true → ∃ i, decode w = .ok i ∧ i.mnemonic = r.mnemonic)

/-- The encoding examples of spec/30_encoding.md R115, which the spec marks as its own inference from R100 to R110. -/
def Obligations.EncodingExamples : Prop :=
  decode 0x0100000005 = .ok (.hallComm 5) ∧
  decode 0x0200000000 = .ok .hallTick ∧
  decode 0x1000000007 = .ok (.pidUpdate 7) ∧
  decode 0x10FFFFFFFD = .ok (.pidUpdate (BitVec.ofInt 32 (-3))) ∧
  decode 0x2027100000 = .ok (.svmCompute (BitVec.ofInt 16 10000) 0) ∧
  decode 0x200000D8F0 = .ok (.svmCompute 0 (BitVec.ofInt 16 (-10000))) ∧
  decode 0x8A00008000 = .ok (.wrReg (regNumber .pidKi) 32768) ∧
  decode 0x8CFFFFFFFF = .ok (.wrReg (regNumber .pidOutMin) (BitVec.ofInt 32 (-1))) ∧
  decode 0xD000000000 = .ok (.rdReg (regNumber .status)) ∧
  decode 0x0100000008 = .error .illegalOperand ∧ opErrCode (opErrOfDecode .illegalOperand) = 2 ∧
  decode 0x0500000000 = .error .illegalOpcode ∧ opErrCode (opErrOfDecode .illegalOpcode) = 1

/-- A word sent byte by byte goes opcode first, and arrives as it was sent (spec/20_memory.md R82). -/
def Obligations.SerialWordArrives : Prop :=
  ∀ w : OpWord, wordOfSerial (serialBytes w) = some w ∧ (serialBytes w).head? = some (opcodeOf w) ∧
    (serialBytes w).getLast? = some (w.extractLsb' 0 8)

/-- The unmapped register numbers (spec/10_state.md R65): reads and writes of them raise `OpError(4)`, with data 0. -/
def Obligations.UnmappedRegistersRefused : Prop :=
  ∀ n : RegNum,
    (n.toNat ∈ [0x06, 0x07, 0x1F, 0x25, 0x26, 0x27] ∨ 0x2D ≤ n.toNat ↔ regOfNumber n = none) ∧
    (regOfNumber n = none → ∀ (val : Word) (s : State),
      (∃ t, exec (.rdReg n) s = .next t ∧ OpErrorOnly (0b11#2 ++ n) 4 s t) ∧
      (∃ t, exec (.wrReg n val) s = .next t ∧ OpErrorOnly (0b10#2 ++ n) 4 s t))

/-! ### The step -/

/-- A step runs the decoded operation (spec/00_scope.md R8): `exec` of it, in the state whose stream has moved past the
operation, with its Hall-pin level on the pins, no response and no event yet (log entries 1, 3 and 5). -/
def Obligations.StepRunsDecoded : Prop :=
  ∀ (s : State) (op : Issue) (rest : List Issue) (i : Instr),
    s.stream = op :: rest → decode op.word = .ok i →
      step s = exec i { s with stream := rest, hallIn := op.hallIn, resp := none, events := [] }

/-- A reserved opcode byte raises `OpError(1)` and changes nothing else, whatever the operand
(spec/30_encoding.md R110 item a). -/
def Obligations.ReservedOpcodeRefused : Prop :=
  ∀ (s : State) (op : Issue) (rest : List Issue) (n : Nat), s.stream = op :: rest → n = op.word.toNat / 2 ^ 32 →
    (0x05 ≤ n ∧ n ≤ 0x0F) ∨ (0x12 ≤ n ∧ n ≤ 0x1F) ∨ (0x21 ≤ n ∧ n ≤ 0x7F) →
      ∃ t, step s = .next t ∧
        OpErrorOnly (BitVec.ofNat 8 n) 1
          { s with stream := rest, hallIn := op.hallIn, resp := none, events := [] } t

/-- A must-be-zero operand bit of formats N, H and RR that is 1 raises `OpError(2)` and changes nothing else
(spec/30_encoding.md R102, R103, R106, R110 item b). -/
def Obligations.MustBeZeroRefused : Prop :=
  ∀ (s : State) (op : Issue) (rest : List Issue) (n opd : Nat), s.stream = op :: rest →
    n = op.word.toNat / 2 ^ 32 → opd = op.word.toNat % 2 ^ 32 →
    (n ∈ [0x00, 0x02, 0x03, 0x04, 0x11] ∧ opd ≠ 0) ∨ (n = 0x01 ∧ 8 ≤ opd) ∨ (0xC0 ≤ n ∧ opd ≠ 0) →
      ∃ t, step s = .next t ∧
        OpErrorOnly (BitVec.ofNat 8 n) 2
          { s with stream := rest, hallIn := op.hallIn, resp := none, events := [] } t

/-- With no operation offered a step changes no register (the model's choice, log entry 2; spec/60_exceptions.md R234:
"between operations the MCC is idle and holds its state"). -/
def Obligations.IdleStepHolds : Prop :=
  ∀ s : State, s.stream = [] → step s = .next { s with resp := none, events := [] }

/-- Every operation word in every state gives a next state and a response (spec/70_reset_and_hazards.md R257), one
operation is taken from the stream, the events are none, one commit, or one commit and one fault report, and an error
response carries data 0 and no event (spec/30_encoding.md R111, spec/60_exceptions.md R211).  That the commit comes before the
report in the list is the model's reading of the lines of R227 (log entry 10). -/
def Obligations.EveryWordIsAnswered : Prop :=
  ∀ (s : State) (op : Issue) (rest : List Issue), s.stream = op :: rest →
    ∃ t r, step s = .next t ∧ t.resp = some r ∧ t.stream = rest ∧ r.err.toNat ≤ 4 ∧
      t.events ∈ [[], [.commit], [.commit, .fault 1]] ∧ (r.err ≠ 0 → r.data = 0 ∧ t.events = [])

/-- A refused operation is precise (spec/60_exceptions.md R211): when the response carries an error, the state is the one
before the operation plus the two records, with the opcode byte of the word. -/
def Obligations.RefusalIsPrecise : Prop :=
  ∀ (s t : State) (op : Issue) (rest : List Issue) (r : Response),
    s.stream = op :: rest → step s = .next t → t.resp = some r → r.err ≠ 0 →
      OpErrorOnly (op.word.extractLsb' 32 8) r.err
        { s with stream := rest, hallIn := op.hallIn, resp := none, events := [] } t

/-- `NOP` (spec/44_register_access.md R190): it reads and writes no state and emits no event. -/
def Obligations.NopRule : Prop :=
  (∀ s : State, exec .nop s = .next { s with resp := some ⟨0, 0⟩ }) ∧
  (∀ opd : Word, decode (0x00#8 ++ opd) = if opd = 0 then .ok .nop else .error .illegalOperand)

/-! ### Hall commutation engine -/

/-- An accepted `HALL.COMM` with a valid code (spec/41_hall_commutation.md R125): one phase has the live duty
`min(PULSE, PWM_PERIOD)`, a different one its gate, both banks hold that pattern, `STALL_CNT` is 0, and nothing else
changes. -/
def Obligations.ValidCodeCommutates : Prop :=
  ∀ (s : State) (code : BitVec 3), s.status.hallEn = true → code ≠ 0 → code ≠ 7 →
    ∃ (st : BitVec 3) (driven freewheel : Phase) (b : Bank),
      st = machineCfg.hallStepMap s.host.dir code ∧ st ≠ 0 ∧ st ≠ 7 ∧
      machineCfg.stepPattern st = (driven, freewheel) ∧ driven ≠ freewheel ∧
      (∀ p, (b.duty p).toNat = if p = driven then min s.host.pulse.toNat s.host.pwmPeriod.toNat else 0) ∧
      (∀ p, b.gateOn p = decide (p = freewheel)) ∧
      exec (.hallComm code) s = .next { s with
        stg := b, out := b
        hall := { s.hall with stallCnt := 0, step := st, hallLast := code }
        resp := some ⟨0, st.setWidth 32⟩, events := s.events ++ [.commit] }

/-- An accepted `HALL.COMM` with code 0 or 7 (spec/41_hall_commutation.md R125, spec/10_state.md R42, R49): recorded, and
nothing else changes, `STALL_CNT` and the outputs included. -/
def Obligations.InvalidCodeRecorded : Prop :=
  ∀ (s : State) (code : BitVec 3), s.status.hallEn = true → code = 0 ∨ code = 7 →
    ∃ cnt : BitVec 16, cnt.toNat = min (s.hall.invHallCnt.toNat + 1) 65535 ∧
      exec (.hallComm code) s = .next { s with
        status.invHall := true, hall.invHallCnt := cnt, resp := some ⟨0, s.hall.step.setWidth 32⟩ }

/-- While `HALL_EN` is 0, `HALL.COMM` and `HALL.TICK` have no effect (spec/10_state.md R40, spec/41_hall_commutation.md
R125, R128). -/
def Obligations.MaskedWhileDisarmed : Prop :=
  ∀ s : State, s.status.hallEn = false →
    (∀ code, exec (.hallComm code) s = .next { s with resp := some ⟨0, s.hall.step.setWidth 32⟩ }) ∧
    exec .hallTick s = .next { s with resp := some ⟨0, 0⟩ }

/-- The twelve cases under the default tables (spec/41_hall_commutation.md R129): direction, code, step, driven phase and
`OUT_GATE`.  The default tables are one well-formed record, not the machine's configuration (log entry 4); the spec marks the
list as its own inference. -/
def Obligations.TwelveDefaultCases : Prop :=
  ∀ row ∈ ([(0, 5, 1, .a, 0b010), (0, 1, 2, .a, 0b100), (0, 3, 3, .b, 0b100), (0, 2, 4, .b, 0b001),
            (0, 6, 5, .c, 0b001), (0, 4, 6, .c, 0b010), (1, 5, 4, .b, 0b001), (1, 1, 5, .c, 0b001),
            (1, 3, 6, .c, 0b010), (1, 2, 1, .a, 0b010), (1, 6, 2, .a, 0b100), (1, 4, 3, .b, 0b100)] :
            List (BitVec 1 × BitVec 3 × BitVec 3 × Phase × BitVec 3)),
    ∀ s : State, s.status.hallEn = true → s.host.dir = row.1 →
      (hallComm Config.sample row.2.1 s).hall.step = row.2.2.1 ∧
      (∀ p, ((hallComm Config.sample row.2.1 s).out.duty p).toNat =
        if p = row.2.2.2.1 then min s.host.pulse.toNat s.host.pwmPeriod.toNat else 0) ∧
      (hallComm Config.sample row.2.1 s).out.gate = row.2.2.2.2

/-- `HALL.TICK` (spec/41_hall_commutation.md R128) and the entry to the terminal fault (spec/60_exceptions.md R227): the
count goes up first and is then compared; past the threshold the fault is entered, with every register it does not name
unchanged.  That the commit comes before the report in the list of events is the model's reading of the lines of R227 (log
entry 10). -/
def Obligations.StallTickRule : Prop :=
  (∀ s : State, s.status.hallEn = false → exec .hallTick s = .next { s with resp := some ⟨0, 0⟩ }) ∧
  (∀ s : State, s.status.hallEn = true → ∃ cnt : BitVec 16, cnt.toNat = min (s.hall.stallCnt.toNat + 1) 65535 ∧
    (cnt.toNat ≤ s.host.stallThr.toNat →
      exec .hallTick s = .next { s with hall.stallCnt := cnt, resp := some ⟨0, 0⟩ }) ∧
    (s.host.stallThr.toNat < cnt.toNat →
      exec .hallTick s = .next { s with
        status := { s.status with hallEn := false, faultStall := true }
        hall := { s.hall with stallCnt := cnt, step := 0, hallLast := 0, faultCode := 1 }
        out := ⟨0, 0, 0, 0⟩, stg := ⟨0, 0, 0, 0⟩
        resp := some ⟨0, 0⟩, events := s.events ++ [.commit, .fault 1] })) ∧
  (∀ opd : Word, decode (0x02#8 ++ opd) = if opd = 0 then .ok .hallTick else .error .illegalOperand)

/-- Stall timing (spec/41_hall_commutation.md R130, spec/10_state.md R27, both the spec's own inferences): armed
with count 0 and threshold `t`, the engine tolerates exactly `t` consecutive ticks, the next one faults and reports once,
however many more follow; with threshold 65535 it never faults. -/
def Obligations.StallFaultAfterThreshold : Prop :=
  ∀ s : State, s.status.hallEn = true → s.status.faultStall = false → s.hall.stallCnt = 0 →
    (∀ k ≤ s.host.stallThr.toNat, ∃ t, runTicks k s = some t ∧ t.status.hallEn = true ∧
      t.hall.stallCnt.toNat = k ∧ t.out = s.out ∧ t.events = s.events) ∧
    (s.host.stallThr.toNat < 65535 → ∀ k > s.host.stallThr.toNat, ∃ t, runTicks k s = some t ∧
      t.status.hallEn = false ∧ t.status.faultStall = true ∧ t.out = Bank.off ∧
      t.hall.stallCnt.toNat = s.host.stallThr.toNat + 1 ∧
      faultReports t.events = faultReports s.events + 1) ∧
    (s.host.stallThr.toNat = 65535 → ∀ k, ∃ t, runTicks k s = some t ∧ t.status.hallEn = true ∧
      t.status.faultStall = false)

/-- `HALL.ARM` (spec/41_hall_commutation.md R126), the only way out of the fault: outputs, `STEP`, `HALL_LAST`, the PID
registers and the sticky flags are untouched. -/
def Obligations.ArmRule : Prop :=
  (∀ s : State, s.host.mode = 1 →
    exec .hallArm s = .next { s with
      status := { s.status with hallEn := true, faultStall := false }
      hall := { s.hall with stallCnt := 0, faultCode := 0 }
      resp := some ⟨0, 0⟩ }) ∧
  (∀ s : State, s.host.mode ≠ 1 → ∃ t, exec .hallArm s = .next t ∧ OpErrorOnly 0x03 3 s t) ∧
  (∀ opd : Word, decode (0x03#8 ++ opd) = if opd = 0 then .ok .hallArm else .error .illegalOperand) ∧
  (∀ (i : Instr) (s t : State), exec i s = .next t → s.status.faultStall = true → i ≠ .hallArm →
    t.status.faultStall = true)

/-- `HALL.STOP` (spec/41_hall_commutation.md R127): legal in every mode and condition; `FAULT_STALL` and `FAULT_CODE` are
not changed. -/
def Obligations.StopRule : Prop :=
  (∀ s : State, exec .hallStop s = .next { s with
    status.hallEn := false
    hall := { s.hall with stallCnt := 0, step := 0, hallLast := 0 }
    out := ⟨0, 0, 0, 0⟩, stg := ⟨0, 0, 0, 0⟩
    resp := some ⟨0, 0⟩, events := s.events ++ [.commit] }) ∧
  (∀ opd : Word, decode (0x04#8 ++ opd) = if opd = 0 then .ok .hallStop else .error .illegalOperand)

/-- The life cycle (spec/41_hall_commutation.md R121): what arms, disarms, enters and leaves the fault, over every
operation. -/
def Obligations.ConditionTransitions : Prop :=
  ∀ (i : Instr) (s t : State), exec i s = .next t →
    (t.status.hallEn = true → s.status.hallEn = true ∨ (i = .hallArm ∧ s.host.mode = 1)) ∧
    (t.status.faultStall = true → s.status.faultStall = true ∨ (i = .hallTick ∧ s.status.hallEn = true ∧
      s.host.stallThr.toNat < min (s.hall.stallCnt.toNat + 1) 65535)) ∧
    (s.status.faultStall = true → t.status.faultStall = false → i = .hallArm ∧ t.status.hallEn = true) ∧
    (s.status.hallEn = true → t.status.hallEn = false →
      i = .hallStop ∨ (i = .hallTick ∧ t.status.faultStall = true))

/-! ### PID regulator -/

/-- `PID.UPDATE` (spec/42_pid.md R143): exact integers, `raw` the floor of `acc / 2^16`, every result stored without loss,
both flags rewritten, `PULSE` written when routed, nothing else changed; every operand is legal. -/
def Obligations.PidUpdateRule : Prop :=
  (∀ (s : State) (measured : Word), ∃ (e i0 i1 d acc raw out : Int) (t : State),
    exec (.pidUpdate measured) s = .next t ∧
    e = min (max (s.host.pidTarget.toInt - measured.toInt) (-2147483648)) 2147483647 ∧
    i0 = s.pid.integral.toInt + e ∧
    i1 = min (max i0 s.host.pidIntMin.toInt) s.host.pidIntMax.toInt ∧
    d = e - s.pid.prevError.toInt ∧
    acc = s.host.pidKp.toInt * e + s.host.pidKi.toInt * i1 + s.host.pidKd.toInt * d ∧
    raw * 65536 ≤ acc ∧ acc < (raw + 1) * 65536 ∧
    out = min (max raw s.host.pidOutMin.toInt) s.host.pidOutMax.toInt ∧
    t.pid.measured = measured ∧ t.pid.error.toInt = e ∧ t.pid.prevError.toInt = e ∧
    t.pid.integral.toInt = i1 ∧ t.pid.out.toInt = out ∧
    (t.status.pidIntSat = true ↔ i0 ≠ i1) ∧ (t.status.pidOutSat = true ↔ raw ≠ out) ∧
    (s.host.pidRoute = 1 → (t.host.pulse.toNat : Int) = min (max out 0) s.host.pwmPeriod.toNat) ∧
    (s.host.pidRoute ≠ 1 → t.host.pulse = s.host.pulse) ∧
    t = { s with
      pid := t.pid
      status := { s.status with pidOutSat := t.status.pidOutSat, pidIntSat := t.status.pidIntSat }
      host.pulse := t.host.pulse
      resp := some ⟨0, t.pid.out⟩ }) ∧
  (∀ opd : Word, decode (0x10#8 ++ opd) = .ok (.pidUpdate opd))

/-- The regulator's memory is exactly `PID_INTEGRAL` and `PID_PREV_ERROR` (spec/42_pid.md R145): two states that agree on
them and on the configuration registers give the same results, whatever else they hold.  The spec marks the rule as its own
inference from R143. -/
def Obligations.PidMemoryIsTwoRegisters : Prop :=
  ∀ (s₁ s₂ : State) (measured : Word), s₁.host = s₂.host → s₁.pid.integral = s₂.pid.integral →
    s₁.pid.prevError = s₂.pid.prevError →
      ∃ t₁ t₂, exec (.pidUpdate measured) s₁ = .next t₁ ∧ exec (.pidUpdate measured) s₂ = .next t₂ ∧
        t₁.pid = t₂.pid ∧ t₁.host = t₂.host ∧ t₁.resp = t₂.resp ∧
        t₁.status.pidOutSat = t₂.status.pidOutSat ∧ t₁.status.pidIntSat = t₂.status.pidIntSat

/-- `PID.RESET` (spec/42_pid.md R144): exactly two registers are cleared, and no operation but the regulator's own two
touches the regulator's data registers. -/
def Obligations.PidResetRule : Prop :=
  (∀ s : State, exec .pidReset s = .next { s with
    pid := { s.pid with integral := 0, prevError := 0 }, resp := some ⟨0, 0⟩ }) ∧
  (∀ opd : Word, decode (0x11#8 ++ opd) = if opd = 0 then .ok .pidReset else .error .illegalOperand) ∧
  (∀ (i : Instr) (s t : State), exec i s = .next t → i ≠ .pidReset → (∀ measured, i ≠ .pidUpdate measured) →
    t.pid = s.pid)

/-! ### Space-vector modulator -/

/-- `Magnitude` is the floor of the exact square root (spec/43_svm_ovm.md R163, spec/00_scope.md R10). -/
def Obligations.MagnitudeIsFloorRoot : Prop :=
  ∀ alpha beta : Int, 0 ≤ magnitude alpha beta ∧
    magnitude alpha beta * magnitude alpha beta ≤ alpha * alpha + beta * beta ∧
    alpha * alpha + beta * beta < (magnitude alpha beta + 1) * (magnitude alpha beta + 1)

/-- `Classify` (spec/43_svm_ovm.md R164): under a well-formed record each regime is exactly its interval, every lower bound
inclusive. -/
def Obligations.RegimeIntervals : Prop :=
  ∀ (c : Cfg) (vref : Int), Config.WF c →
    (classify c vref = .linear ↔ vref < c.vrefM1Start) ∧
    (classify c vref = .ovmMode1 ↔ c.vrefM1Start ≤ vref ∧ vref < c.vrefM2Start) ∧
    (classify c vref = .ovmMode2 ↔ c.vrefM2Start ≤ vref ∧ vref < c.vrefM2End) ∧
    (classify c vref = .error ↔ c.vrefM2End ≤ vref)

/-- The table indices (spec/43_svm_ovm.md R165, R166) and the corrected vector (R167): under a well-formed record every `vref`
of an over-modulation regime has both indices inside their tables, the entries are used exactly as stored, and a component
is scaled by the gain over 32768, truncated toward zero; LINEAR passes it through, ERROR makes it 0. -/
def Obligations.TableIndicesInside : Prop :=
  (∀ (c : Cfg) (vref : Int), Config.WF c → c.vrefM1Start ≤ vref → vref < c.vrefM2End →
    (∃ i : Fin 192, (i.val : Int) * c.vrefIdxStep ≤ vref - c.vrefM1Start ∧
      vref - c.vrefM1Start < ((i.val : Int) + 1) * c.vrefIdxStep ∧ gain c vref = (c.gainLut i).toNat ∧
      (∀ x, correct c vref .ovmMode1 x = Int.tdiv (x * (c.gainLut i).toNat) 32768 ∧
        correct c vref .ovmMode2 x = Int.tdiv (x * (c.gainLut i).toNat) 32768) ∧
      ∃ j : Fin 100, (j.val : Int) = max ((i.val : Int) - c.gammaIdxOffset) 0 ∧
        gamma c vref .ovmMode2 = (c.gammaLut j).toNat)) ∧
  (∀ (c : Cfg) (vref x : Int), correct c vref .linear x = x ∧ correct c vref .error x = 0 ∧
    ∀ g, correct c vref g (-x) = -correct c vref g x)

/-- The projection and the six dwell formulas (spec/43_svm_ovm.md R168, R169, R171): `n` is the truncation toward zero of
`(-bc) * 18919 / 32768` and the three axes are formed from it, so `X = Y + Z`; the conditions of the chosen sector hold, both
raw dwell times are non-negative and have the sum of the table. -/
def Obligations.SectorFormulas : Prop :=
  ∀ ac bc : Int, ∃ n v t, n = Int.tdiv ((-bc) * 18919) 32768 ∧ v = project ac bc ∧ t = rawDwell (sectorOf v) v ∧
    v.x = 2 * n ∧ v.y = ac + n ∧ v.z = -ac + n ∧ v.x = v.y + v.z ∧ 0 ≤ t.t1 ∧ 0 ≤ t.t2 ∧
    ((sectorOf v = .s1 ∧ 0 ≤ v.y ∧ v.z < 0 ∧ 0 < v.x ∧ t = ⟨-v.z, v.x⟩ ∧ t.t1 + t.t2 = v.y) ∨
     (sectorOf v = .s2 ∧ 0 ≤ v.y ∧ 0 ≤ v.z ∧ t = ⟨v.z, v.y⟩ ∧ t.t1 + t.t2 = v.x) ∨
     (sectorOf v = .s3 ∧ v.y < 0 ∧ 0 ≤ v.z ∧ 0 < v.x ∧ t = ⟨v.x, -v.y⟩ ∧ t.t1 + t.t2 = v.z) ∨
     (sectorOf v = .s4 ∧ v.y < 0 ∧ 0 ≤ v.z ∧ v.x ≤ 0 ∧ t = ⟨-v.x, v.z⟩ ∧ t.t1 + t.t2 = -v.y) ∨
     (sectorOf v = .s5 ∧ v.y < 0 ∧ v.z < 0 ∧ t = ⟨-v.y, -v.z⟩ ∧ t.t1 + t.t2 = -v.x) ∨
     (sectorOf v = .s6 ∧ 0 ≤ v.y ∧ v.z < 0 ∧ v.x ≤ 0 ∧ t = ⟨v.y, -v.x⟩ ∧ t.t1 + t.t2 = -v.z))

/-- The rescale to the hexagon edge (spec/43_svm_ovm.md R173), for the non-negative dwell times that R171 gives: strict,
`T1` by one truncating division, the sum exactly one period. -/
def Obligations.EdgeRescale : Prop :=
  ∀ t : Dwell, 0 ≤ t.t1 → 0 ≤ t.t2 →
    (t.t1 + t.t2 ≤ 32768 → rescale t = t) ∧
    (32768 < t.t1 + t.t2 →
      (rescale t).t1 * (t.t1 + t.t2) ≤ t.t1 * 32768 ∧ t.t1 * 32768 < ((rescale t).t1 + 1) * (t.t1 + t.t2) ∧
      (rescale t).t1 + (rescale t).t2 = 32768 ∧ 0 ≤ (rescale t).t1 ∧ 0 ≤ (rescale t).t2)

/-- The OVM_MODE_2 transform (spec/43_svm_ovm.md R176), for the non-negative dwell times that R171 gives: the zero vector
stays, any other is put on the hexagon edge, with one leg fully off and one fully on.  With `gm` the gamma clamped to
0..17156, the share of `T1` on the edge is mapped to 0 up to the offset and to a line of slope `17157 / (17157 - gm)` above
it, capped at one period; gamma 0 is exactly the edge rescale. -/
def Obligations.OvmMode2OnEdge : Prop :=
  ∀ (t : Dwell) (gam : Int), 0 ≤ t.t1 → 0 ≤ t.t2 →
    (t.t1 + t.t2 = 0 → reshape t gam = ⟨0, 0⟩) ∧
    (0 < t.t1 + t.t2 →
      (reshape t gam).t1 + (reshape t gam).t2 = 32768 ∧ 0 ≤ (reshape t gam).t1 ∧ 0 ≤ (reshape t gam).t2 ∧
      (levels (reshape t gam)).lo = 0 ∧ (levels (reshape t gam)).hi = 65536 ∧
      (∃ share gm off : Int,
        share * (t.t1 + t.t2) ≤ t.t1 * 32768 ∧ t.t1 * 32768 < (share + 1) * (t.t1 + t.t2) ∧
        gm = min (max gam 0) 17156 ∧ off * 32768 ≤ 31291 * gm ∧ 31291 * gm < (off + 1) * 32768 ∧
        (share ≤ off → (reshape t gam).t1 = 0) ∧
        (off < share → ∃ q : Int, q * (17157 - gm) ≤ (share - off) * 17157 ∧
          (share - off) * 17157 < (q + 1) * (17157 - gm) ∧ (reshape t gam).t1 = min q 32768)) ∧
      (gam ≤ 0 → (reshape t gam).t1 * (t.t1 + t.t2) ≤ t.t1 * 32768 ∧
        t.t1 * 32768 < ((reshape t gam).t1 + 1) * (t.t1 + t.t2)))

/-- The ranges of the intermediates (spec/43_svm_ovm.md R161, R177, R181): for every well-formed record, every command and
every period.  The spec marks R161 as its own inference from R163 to R181. -/
def Obligations.SvmRanges : Prop :=
  ∀ (c : Cfg) (alpha beta : BitVec 16), Config.WF c → ∃ r, r = svmStep c alpha.toInt beta.toInt ∧
    -- magnitude, tables, correction
    alpha.toInt * alpha.toInt + beta.toInt * beta.toInt ≤ 2147483648 ∧ 0 ≤ r.vref ∧ r.vref ≤ 46340 ∧
    (r.regime = .ovmMode1 ∨ r.regime = .ovmMode2 → 0 ≤ gainIndex c r.vref ∧ gainIndex c r.vref ≤ 191 ∧
      0 ≤ gammaIndex c r.vref ∧ gammaIndex c r.vref ≤ 99) ∧
    0 ≤ gain c r.vref ∧ gain c r.vref ≤ 65535 ∧ 0 ≤ r.gam ∧ r.gam ≤ 65535 ∧
    |alpha.toInt * gain c r.vref| ≤ 32768 * 65535 ∧ |beta.toInt * gain c r.vref| ≤ 32768 * 65535 ∧
    |r.ac| ≤ 65535 ∧ |r.bc| ≤ 65535 ∧
    -- projection and raw dwell times
    |(-r.bc) * 18919| ≤ 65535 * 18919 ∧ |axisTerm r.bc| ≤ 37837 ∧
    |r.axes.x| ≤ 75674 ∧ |r.axes.y| ≤ 103372 ∧ |r.axes.z| ≤ 103372 ∧
    0 ≤ r.raw.t1 ∧ r.raw.t1 ≤ 103372 ∧ 0 ≤ r.raw.t2 ∧ r.raw.t2 ≤ 103372 ∧ r.raw.t1 + r.raw.t2 ≤ 206744 ∧
    r.raw.t1 * 32768 < 4294967296 ∧
    -- redistribution: the terms of OVM_MODE_2, then the result
    (0 < r.raw.t1 + r.raw.t2 → 0 ≤ edgeShare r.raw ∧ edgeShare r.raw ≤ 32768 ∧
      0 ≤ effectiveGamma r.gam ∧ effectiveGamma r.gam ≤ 17156 ∧
      0 ≤ holdOffset (effectiveGamma r.gam) ∧ holdOffset (effectiveGamma r.gam) ≤ 16382 ∧
      1 ≤ 17157 - effectiveGamma r.gam ∧ 17157 - effectiveGamma r.gam ≤ 17157 ∧
      max (edgeShare r.raw - holdOffset (effectiveGamma r.gam)) 0 * 17157 ≤ 32768 * 17157) ∧
    0 ≤ r.dwell.t1 ∧ 0 ≤ r.dwell.t2 ∧ r.dwell.t1 + r.dwell.t2 ≤ 32768 ∧
    -- levels, duties, compare counts
    0 ≤ r.levels.lo ∧ r.levels.lo ≤ r.levels.mid ∧ r.levels.mid ≤ r.levels.hi ∧ r.levels.hi ≤ 65536 ∧
    r.levels.lo + r.levels.hi = 65536 ∧
    ∀ d ∈ [r.duties.a, r.duties.b, r.duties.c], 0 ≤ d ∧ d ≤ 65536 ∧
      ∀ period : BitVec 16, 0 ≤ period.toNat * d ∧ period.toNat * d < 4294967296 ∧
        0 ≤ scaleDuty period.toNat d ∧ scaleDuty period.toNat d ≤ period.toNat

/-- The pipeline (spec/43_svm_ovm.md R160): what each step takes from the steps before it, with the correction of R167, the
choice of the redistribution by regime (R173, R174, R176), the three levels (R177) and the assignment table (R178). -/
def Obligations.SvmPipeline : Prop :=
  ∀ (c : Cfg) (alpha beta : Int) (r : SvmStep), r = svmStep c alpha beta →
    r.vref = magnitude alpha beta ∧ r.regime = classify c r.vref ∧
    (r.regime = .linear → r.ac = alpha ∧ r.bc = beta ∧ r.gam = 0 ∧ r.dwell = rescale r.raw) ∧
    (r.regime = .ovmMode1 → r.ac = Int.tdiv (alpha * gain c r.vref) 32768 ∧
      r.bc = Int.tdiv (beta * gain c r.vref) 32768 ∧ r.gam = 0 ∧ r.dwell = rescale r.raw) ∧
    (r.regime = .ovmMode2 → r.ac = Int.tdiv (alpha * gain c r.vref) 32768 ∧
      r.bc = Int.tdiv (beta * gain c r.vref) 32768 ∧ r.gam = gamma c r.vref .ovmMode2 ∧
      r.dwell = reshape r.raw r.gam) ∧
    (r.regime = .error → r.ac = 0 ∧ r.bc = 0 ∧ r.gam = 0 ∧ r.dwell = ⟨0, 0⟩) ∧
    r.axes = project r.ac r.bc ∧ r.sector = sectorOf r.axes ∧ r.raw = rawDwell r.sector r.axes ∧
    r.levels = ⟨32768 - r.dwell.t1 - r.dwell.t2, 32768 - r.dwell.t1 + r.dwell.t2, 32768 + r.dwell.t1 + r.dwell.t2⟩ ∧
    (r.sector = .s1 → r.duties = ⟨r.levels.hi, r.levels.mid, r.levels.lo⟩) ∧
    (r.sector = .s2 → r.duties = ⟨r.levels.mid, r.levels.hi, r.levels.lo⟩) ∧
    (r.sector = .s3 → r.duties = ⟨r.levels.lo, r.levels.hi, r.levels.mid⟩) ∧
    (r.sector = .s4 → r.duties = ⟨r.levels.lo, r.levels.mid, r.levels.hi⟩) ∧
    (r.sector = .s5 → r.duties = ⟨r.levels.mid, r.levels.lo, r.levels.hi⟩) ∧
    (r.sector = .s6 → r.duties = ⟨r.levels.hi, r.levels.lo, r.levels.mid⟩)

/-- The three line-to-line differences (spec/43_svm_ovm.md R179): linear in the command across all six sectors, in LINEAR
with no rescale.  The spec marks the rule as its own inference. -/
def Obligations.LineToLineLinear : Prop :=
  ∀ (c : Cfg) (alpha beta : BitVec 16) (r : SvmStep), r = svmStep c alpha.toInt beta.toInt →
    r.regime = .linear → r.raw.t1 + r.raw.t2 ≤ 32768 →
      r.duties.b - r.duties.a = 2 * r.axes.z ∧ r.duties.c - r.duties.a = -2 * r.axes.y ∧
      r.duties.c - r.duties.b = -2 * r.axes.x

/-- What `SVM.COMPUTE` writes (spec/43_svm_ovm.md R160, R181, R182): the results without loss, compare counts the floor of
`PWM_PERIOD * duty / 65536`, gate enables 0, both banks together, and nothing else. -/
def Obligations.SvmResultsWritten : Prop :=
  ∀ (s : State) (alpha beta : BitVec 16), s.host.mode = 2 →
    ∃ (r : SvmStep) (t : State), r = svmStep machineCfg alpha.toInt beta.toInt ∧
      exec (.svmCompute alpha beta) s = .next t ∧
      t.svm.sector = sectorCode r.sector ∧ t.svm.regime = regimeCode r.regime ∧ (t.svm.vref.toNat : Int) = r.vref ∧
      (t.svm.dutyA.toNat : Int) = r.duties.a ∧ (t.svm.dutyB.toNat : Int) = r.duties.b ∧
      (t.svm.dutyC.toNat : Int) = r.duties.c ∧
      (∀ p d, (p, d) ∈ [(Phase.a, r.duties.a), (.b, r.duties.b), (.c, r.duties.c)] →
        ((t.out.duty p).toNat : Int) * 65536 ≤ s.host.pwmPeriod.toNat * d ∧
        s.host.pwmPeriod.toNat * d < (((t.out.duty p).toNat : Int) + 1) * 65536) ∧
      t.out.gate = 0 ∧
      t.svm.ovmErrCnt.toNat =
        (if r.regime = .error then min (s.svm.ovmErrCnt.toNat + 1) 65535 else s.svm.ovmErrCnt.toNat) ∧
      t = { s with
        svm := t.svm, out := t.out, stg := t.out
        status.ovmErr := s.status.ovmErr || decide (r.regime = .error)
        resp := some ⟨0, 0#27 ++ regimeCode r.regime ++ sectorCode r.sector⟩
        events := s.events ++ [.commit] }

/-- `SVM.COMPUTE` outside `MODE = 2` (spec/43_svm_ovm.md R183): refused with `OpError(3)`, no state change. -/
def Obligations.SvmWrongModeRefused : Prop :=
  ∀ (s : State) (alpha beta : BitVec 16), s.host.mode ≠ 2 →
    ∃ t, exec (.svmCompute alpha beta) s = .next t ∧ OpErrorOnly 0x20 3 s t

/-- The zero command (spec/43_svm_ovm.md R175): LINEAR, sector 2, three equal duties at the center value, whatever the
well-formed configuration. -/
def Obligations.ZeroCommandIsCenter : Prop :=
  ∀ s : State, s.host.mode = 2 → ∃ t, exec (.svmCompute 0 0) s = .next t ∧
    t.svm.vref = 0 ∧ t.svm.regime = 0 ∧ t.svm.sector = 2 ∧
    t.svm.dutyA.toNat = 32768 ∧ t.svm.dutyB.toNat = 32768 ∧ t.svm.dutyC.toNat = 32768 ∧
    (∀ p, (t.out.duty p).toNat = s.host.pwmPeriod.toNat / 2) ∧ t.resp = some ⟨0, 2⟩

/-- The ERROR regime (spec/43_svm_ovm.md R174): the zero vector, the flag and the count; not a fault, and neither `MODE` nor
the Hall engine changes. -/
def Obligations.ErrorRegimeIsCenter : Prop :=
  ∀ (c : Cfg) (s t : State) (alpha beta : BitVec 16), Config.WF c → s.host.mode = 2 →
    classify c (magnitude alpha.toInt beta.toInt) = .error → t = svmCompute c alpha beta s →
      t.svm.dutyA.toNat = 32768 ∧ t.svm.dutyB.toNat = 32768 ∧ t.svm.dutyC.toNat = 32768 ∧
      t.svm.sector = 2 ∧ t.svm.regime = 3 ∧ t.status.ovmErr = true ∧
      t.svm.ovmErrCnt.toNat = min (s.svm.ovmErrCnt.toNat + 1) 65535 ∧
      t.host = s.host ∧ t.hall = s.hall ∧ t.status.hallEn = s.status.hallEn ∧
      t.status.faultStall = s.status.faultStall

/-- Purity (spec/43_svm_ovm.md R162): the outputs are a function of the command, `PWM_PERIOD` and the configuration only; the
one thing carried over is the count. -/
def Obligations.SvmIsPure : Prop :=
  ∀ (s₁ s₂ : State) (alpha beta : BitVec 16), s₁.host.mode = 2 → s₂.host.mode = 2 →
    s₁.host.pwmPeriod = s₂.host.pwmPeriod →
      ∃ t₁ t₂, exec (.svmCompute alpha beta) s₁ = .next t₁ ∧ exec (.svmCompute alpha beta) s₂ = .next t₂ ∧
        t₁.out = t₂.out ∧ t₁.resp = t₂.resp ∧ { t₁.svm with ovmErrCnt := 0 } = { t₂.svm with ovmErrCnt := 0 }

/-! ### Registers -/

/-- `RD.REG` (spec/44_register_access.md R192, spec/10_state.md R21): no state changes, and every mapped register is readable:
the four of several fields have each field at its position and zeros elsewhere, the 22 unsigned ones are zero-extended, the
13 s32 ones are their two's-complement words. -/
def Obligations.ReadLayout : Prop :=
  ∀ s : State,
    (∀ r : Reg, exec (.rdReg (regNumber r)) s = .next { s with resp := some ⟨0, readReg r s⟩ }) ∧
    (∀ k, (readReg .status s).getLsbD k =
      ([s.status.hallEn, s.status.faultStall, s.status.invHall, s.status.ovmErr, s.status.opErr,
        s.status.pidOutSat, s.status.pidIntSat].getD k false)) ∧
    (readReg .hallState s).toNat = s.hall.hallLast.toNat * 8 + s.hall.step.toNat ∧
    (readReg .lastErr s).toNat = s.lastErr.opcode.toNat * 256 + s.lastErr.code.toNat ∧
    (readReg .svmState s).toNat = s.svm.vref.toNat * 65536 + s.svm.regime.toNat * 8 + s.svm.sector.toNat ∧
    (∀ row ∈ [(Reg.mode, s.host.mode.toNat), (.dir, s.host.dir.toNat), (.stallThr, s.host.stallThr.toNat),
              (.pwmPeriod, s.host.pwmPeriod.toNat), (.pulse, s.host.pulse.toNat), (.pidRoute, s.host.pidRoute.toNat),
              (.stallCnt, s.hall.stallCnt.toNat), (.invHallCnt, s.hall.invHallCnt.toNat),
              (.outDutyA, s.out.dutyA.toNat), (.outDutyB, s.out.dutyB.toNat), (.outDutyC, s.out.dutyC.toNat),
              (.outGate, s.out.gate.toNat), (.stgDutyA, s.stg.dutyA.toNat), (.stgDutyB, s.stg.dutyB.toNat),
              (.stgDutyC, s.stg.dutyC.toNat), (.stgGate, s.stg.gate.toNat), (.hallIn, s.hallIn.toNat),
              (.faultCode, s.hall.faultCode.toNat), (.svmDutyA, s.svm.dutyA.toNat), (.svmDutyB, s.svm.dutyB.toNat),
              (.svmDutyC, s.svm.dutyC.toNat), (.ovmErrCnt, s.svm.ovmErrCnt.toNat)],
      (readReg row.1 s).toNat = row.2) ∧
    (∀ row ∈ [(Reg.pidTarget, s.host.pidTarget), (.pidKp, s.host.pidKp), (.pidKi, s.host.pidKi), (.pidKd, s.host.pidKd),
              (.pidOutMin, s.host.pidOutMin), (.pidOutMax, s.host.pidOutMax), (.pidIntMin, s.host.pidIntMin),
              (.pidIntMax, s.host.pidIntMax), (.pidMeasured, s.pid.measured), (.pidError, s.pid.error),
              (.pidPrevError, s.pid.prevError), (.pidIntegral, s.pid.integral), (.pidOut, s.pid.out)],
      readReg row.1 s = row.2)

/-- A plain write is read back and disturbs no other register (spec/10_state.md R22, spec/44_register_access.md R191, R194
to R201, R205): for each register that is written whole, with every value it takes. -/
def Obligations.WriteThenRead : Prop :=
  ∀ row ∈ [(Reg.dir, 2), (.stallThr, 65536), (.pwmPeriod, 65536), (.pulse, 65536), (.pidRoute, 2),
           (.pidTarget, 2 ^ 32), (.pidKp, 2 ^ 32), (.pidKi, 2 ^ 32), (.pidKd, 2 ^ 32), (.pidOutMin, 2 ^ 32),
           (.pidOutMax, 2 ^ 32), (.pidIntMin, 2 ^ 32), (.pidIntMax, 2 ^ 32), (.invHallCnt, 65536),
           (.ovmErrCnt, 65536)],
    ∀ (s : State) (val : Word), val.toNat < row.2 →
      ∃ t, exec (.wrReg (regNumber row.1) val) s = .next t ∧ readReg row.1 t = val ∧
        (∀ r, r ≠ row.1 → readReg r t = readReg r s) ∧
        t.resp = some ⟨0, 0⟩ ∧ t.events = s.events ∧ t.stream = s.stream

/-- The write of `MODE` (spec/44_register_access.md R193): accepted while disarmed, it forces the outputs OFF, also for the
value already held; refused with `OpError(3)` while armed; a value above 2 is refused first. -/
def Obligations.ModeWriteRule : Prop :=
  ∀ (s : State) (val : Word),
    (val.toNat < 3 → s.status.hallEn = false →
      exec (.wrReg 0x00 val) s = .next { s with
        host.mode := val.setWidth 2, out := ⟨0, 0, 0, 0⟩, stg := ⟨0, 0, 0, 0⟩
        resp := some ⟨0, 0⟩, events := s.events ++ [.commit] }) ∧
    (val.toNat < 3 → s.status.hallEn = true → ∃ t, exec (.wrReg 0x00 val) s = .next t ∧ OpErrorOnly 0x80 3 s t) ∧
    (3 ≤ val.toNat → ∃ t, exec (.wrReg 0x00 val) s = .next t ∧ OpErrorOnly 0x80 2 s t)

/-- The write of `STATUS` (spec/44_register_access.md R204): write-one-to-clear of bits 2, 3, 4; every other bit of the
operand is ignored and no error is raised; `FAULT_STALL` is cleared by no operation but `HALL.ARM`. -/
def Obligations.StatusWriteOneToClear : Prop :=
  (∀ (s : State) (val : Word),
    exec (.wrReg 0x10 val) s = .next { s with
      status := { s.status with
        invHall := if val.getLsbD 2 then false else s.status.invHall
        ovmErr := if val.getLsbD 3 then false else s.status.ovmErr
        opErr := if val.getLsbD 4 then false else s.status.opErr }
      resp := some ⟨0, 0⟩ }) ∧
  (∀ (i : Instr) (s t : State), exec i s = .next t → s.status.faultStall = true → t.status.faultStall = false →
    i = .hallArm)

/-- The refused writes (spec/44_register_access.md R191, R202): a read-only register whatever the value, `OpError(4)`; a
value that does not fit a narrow register, `OpError(2)`. -/
def Obligations.RefusedWrites : Prop :=
  (∀ r ∈ [Reg.hallState, .stallCnt, .outDutyA, .outDutyB, .outDutyC, .outGate, .stgDutyA, .stgDutyB, .stgDutyC,
          .stgGate, .hallIn, .lastErr, .faultCode, .pidMeasured, .pidError, .pidPrevError, .pidIntegral, .pidOut,
          .svmState, .svmDutyA, .svmDutyB, .svmDutyC],
    ∀ (s : State) (val : Word),
      ∃ t, exec (.wrReg (regNumber r) val) s = .next t ∧ OpErrorOnly (0b10#2 ++ regNumber r) 4 s t) ∧
  (∀ row ∈ [(Reg.dir, 2), (.stallThr, 65536), (.pwmPeriod, 65536), (.pulse, 65536), (.pidRoute, 2),
            (.invHallCnt, 65536), (.ovmErrCnt, 65536)],
    ∀ (s : State) (val : Word), row.2 ≤ val.toNat →
      ∃ t, exec (.wrReg (regNumber row.1) val) s = .next t ∧ OpErrorOnly (0b10#2 ++ regNumber row.1) 2 s t)

/-- A second spelling does what the operation it stands for does (spec/30_encoding.md R113). -/
def Obligations.SecondSpellingsAgree : Prop := ∀ (i : Instr) (s : State), exec i s = exec i.core s

/-- The second spellings complete (spec/30_encoding.md R113, spec/44_register_access.md R193 to R201, R203, R204): what each
leaves, with every value its register takes. -/
def Obligations.SecondSpellingsComplete : Prop :=
  ∀ (s : State) (val : Word),
    (val.toNat < 3 → s.status.hallEn = false →
      exec (.cfgMode val) s = .next { s with
        host.mode := val.setWidth 2, out := ⟨0, 0, 0, 0⟩, stg := ⟨0, 0, 0, 0⟩
        resp := some ⟨0, 0⟩, events := s.events ++ [.commit] }) ∧
    (val.toNat < 2 → exec (.cfgDir val) s = .next { s with host.dir := val.setWidth 1, resp := some ⟨0, 0⟩ }) ∧
    (val.toNat < 65536 →
      exec (.cfgStallthr val) s = .next { s with host.stallThr := val.setWidth 16, resp := some ⟨0, 0⟩ }) ∧
    (val.toNat < 65536 →
      exec (.cfgPeriod val) s = .next { s with host.pwmPeriod := val.setWidth 16, resp := some ⟨0, 0⟩ }) ∧
    (val.toNat < 65536 →
      exec (.setPulse val) s = .next { s with host.pulse := val.setWidth 16, resp := some ⟨0, 0⟩ }) ∧
    (val.toNat < 2 → exec (.cfgRoute val) s = .next { s with host.pidRoute := val.setWidth 1, resp := some ⟨0, 0⟩ }) ∧
    exec (.pidTarget val) s = .next { s with host.pidTarget := val, resp := some ⟨0, 0⟩ } ∧
    exec (.pidKp val) s = .next { s with host.pidKp := val, resp := some ⟨0, 0⟩ } ∧
    exec (.pidKi val) s = .next { s with host.pidKi := val, resp := some ⟨0, 0⟩ } ∧
    exec (.pidKd val) s = .next { s with host.pidKd := val, resp := some ⟨0, 0⟩ } ∧
    exec (.clrFlags val) s = .next { s with
      status := { s.status with
        invHall := s.status.invHall && !val.getLsbD 2
        ovmErr := s.status.ovmErr && !val.getLsbD 3
        opErr := s.status.opErr && !val.getLsbD 4 }
      resp := some ⟨0, 0⟩ } ∧
    exec .rdHall s = .next { s with resp := some ⟨0, s.hallIn.setWidth 32⟩ }

/-! ### Whole-machine rules -/

/-- The invariants of spec/10_state.md R66 (items a, b, c, e, f, and g as far as log entry 7 says) and the legal values of
the fields are kept by every step, from every state that has them.  The spec marks R66 as its own inference. -/
def Obligations.StepKeepsInv : Prop := ∀ s t : State, Inv s → step s = .next t → Inv t

/-- The outputs of a faulted machine (spec/10_state.md R66 item g, spec/60_exceptions.md R227, R229): off at the entry, off in
every mode but SVM, and nothing but an `SVM.COMPUTE` in `MODE = 2` drives them again.  "While FAULTED every operation other
than the Hall engine's still works normally: … and, after a `MODE` write to 2, `SVM.COMPUTE`" (R229), against the last half
of item g, is the model's reading (log entry 7). -/
def Obligations.FaultedOutputsStayOff : Prop :=
  ∀ (i : Instr) (s t : State), Inv s → exec i s = .next t → t.status.faultStall = true →
    (s.status.faultStall = false → t.out = Bank.off ∧ t.stg = Bank.off) ∧
    (t.host.mode ≠ 2 → t.out = Bank.off ∧ t.stg = Bank.off) ∧
    (s.out = Bank.off → t.out = Bank.off ∨ (s.host.mode = 2 ∧ ∃ alpha beta, i = .svmCompute alpha beta)) ∧
    t.status.hallEn = false ∧ t.out.gate = 0

/-- The reset state has the invariants (spec/10_state.md R66: "from reset onward", the spec's own inference; the model's own
fields play no part). -/
def Obligations.ResetHasInv : Prop := Inv State.reset ∧ StallBounded State.reset

/-- Item (d) of spec/10_state.md R66 is kept by every step that does not lower `STALL_THR` below the count (the spec's own
inference). -/
def Obligations.StallBoundKept : Prop :=
  ∀ s t : State, StallBounded s → step s = .next t →
    s.host.stallThr ≤ t.host.stallThr ∨ s.hall.stallCnt ≤ t.host.stallThr → StallBounded t

/-- Every register after reset (spec/70_reset_and_hazards.md R241): zero, with five exceptions; `HALL_IN` has no reset
value. -/
def Obligations.ResetValues : Prop :=
  readReg .stallThr State.reset = 2 ∧
  readReg .pidOutMin State.reset = BitVec.ofInt 32 (-2147483648) ∧
  readReg .pidIntMin State.reset = BitVec.ofInt 32 (-2147483648) ∧
  readReg .pidOutMax State.reset = 2147483647 ∧ readReg .pidIntMax State.reset = 2147483647 ∧
  ∀ r : Reg, r ∉ [Reg.stallThr, .pidOutMin, .pidIntMin, .pidOutMax, .pidIntMax, .hallIn] → readReg r State.reset = 0

/-- Who may touch the outputs (spec/20_memory.md R93): over every operation, a changed output bank means a commutation while
armed, a modulation in `MODE = 2`, or one of the forced-OFF actions. -/
def Obligations.OutputsHaveOwners : Prop :=
  ∀ (i : Instr) (s t : State), exec i s = .next t → t.out ≠ s.out ∨ t.stg ≠ s.stg →
    (∃ code, i = .hallComm code ∧ s.status.hallEn = true) ∨
    (∃ alpha beta, i = .svmCompute alpha beta ∧ s.host.mode = 2) ∨
    (t.out = Bank.off ∧ t.stg = Bank.off ∧
      (i = .hallStop ∨ (i = .hallTick ∧ t.status.faultStall = true) ∨ ∃ val, i.core = .wrReg 0x00 val))

/-- Every commit leaves every duty within the period (spec/10_state.md R50: "0 ≤ duty ≤ PWM_PERIOD", at the moment of every
commit; the spec marks it as its own inference). -/
def Obligations.CommitWithinPeriod : Prop :=
  ∀ (i : Instr) (s t : State), exec i s = .next t → t.events ≠ s.events →
    t.stg = t.out ∧ ∀ p, (t.out.duty p).toNat ≤ t.host.pwmPeriod.toNat

/-! ### The front end -/

/-- Serving a source (spec/60_exceptions.md R222 to R226): it is enabled and pending; the operation of its row, with the
operand sampled from the pins, is executed by the core and is never refused; its latch is cleared, the other latches are
kept as far as their sources are enabled; the response is discarded.  The layer and its arbitration input are the model's
choice (log entry 8). -/
def Obligations.FrontEndIsNeverRefused : Prop :=
  ∀ (p q : Platform) (src : Source), platformStep (.serve src) p = some q →
    (src = .hall ∨ src = .stallTick → p.core.status.hallEn = true) ∧ (src = .pwmTick → p.core.host.mode = 2) ∧
    pending src p.latches = true ∧ pending src q.latches = false ∧
    (∀ other, other ≠ src → pending other q.latches = (pending other p.latches && sourceEnabled other q.core)) ∧
    step { p.core with stream := [⟨encode (sourceOp src p.pins), p.pins.hallIn⟩] } = .next q.core ∧
    (∃ i, i = sourceOp src p.pins ∧
      ((src = .hall ∧ i = .hallComm p.pins.hallIn) ∨ (src = .stallTick ∧ i = .hallTick) ∨
       (src = .pwmTick ∧ i = .svmCompute p.pins.valphaIn p.pins.vbetaIn) ∨
       (src = .pidTick ∧ i = .pidUpdate p.pins.pidMeasIn)) ∧
      exec i { p.core with stream := [], hallIn := p.pins.hallIn, resp := none, events := [] } = .next q.core) ∧
    (∃ data, q.core.resp = some ⟨0, data⟩) ∧ q.ports.respValid = false ∧ q.pins = p.pins

/-- A clock sample of the pins (spec/60_exceptions.md R222 to R226, spec/10_state.md R71): each source is pending afterwards
exactly when it is enabled and was pending or has its event: any change of the Hall pins, a rising edge of a tick.  No
register changes.  The layer is the model's choice (log entry 8). -/
def Obligations.EdgesSetLatches : Prop :=
  ∀ (p : Platform) (now : Pins), ∃ q, platformStep (.clock now) p = some q ∧
    q.pins = now ∧ q.core = { p.core with resp := none, events := [] } ∧
    (q.latches.pendHall = true ↔ p.core.status.hallEn = true ∧
      (p.latches.pendHall = true ∨ p.pins.hallIn ≠ now.hallIn)) ∧
    (q.latches.pendStallTick = true ↔ p.core.status.hallEn = true ∧
      (p.latches.pendStallTick = true ∨ (p.pins.tickStall = false ∧ now.tickStall = true))) ∧
    (q.latches.pendPwmTick = true ↔ p.core.host.mode = 2 ∧
      (p.latches.pendPwmTick = true ∨ (p.pins.tickPwm = false ∧ now.tickPwm = true))) ∧
    (q.latches.pendPidTick = true ↔ p.latches.pendPidTick = true ∨ (p.pins.tickPid = false ∧ now.tickPid = true))

/-- An operation of the port (spec/60_exceptions.md R222, R232, spec/10_state.md R72): the word itself is executed, and the
ports show its response and the registers after it.  The layer is the model's choice (log entry 8). -/
def Obligations.PortAnswersHost : Prop :=
  ∀ (p : Platform) (w : OpWord), ∃ q r, platformStep (.hostOp w) p = some q ∧
    step { p.core with stream := [⟨w, p.pins.hallIn⟩] } = .next q.core ∧ q.core.resp = some r ∧
    q.ports = {
      pwmDutyA := q.core.out.dutyA, pwmDutyB := q.core.out.dutyB, pwmDutyC := q.core.out.dutyC
      gateEn := q.core.out.gate, commitStb := decide (Event.commit ∈ q.core.events)
      svmSector := q.core.svm.sector, pidOut := q.core.pid.out
      fault := q.core.status.faultStall, faultStb := decide (Event.fault 1 ∈ q.core.events)
      faultCode := q.core.hall.faultCode
      respValid := true, respErr := r.err, respData := r.data }

/-- While a source is not enabled its latch is held clear (spec/60_exceptions.md R223, R224, R226): after every input of the
platform.  The layer is the model's choice (log entry 8). -/
def Obligations.MaskedLatchesAreClear : Prop :=
  ∀ (inp : PlatformInput) (p q : Platform), platformStep inp p = some q →
    ∀ src, pending src q.latches = true → sourceEnabled src q.core = true
end

