-- ==== Sys2Proof/Laws/Arith.lean ====
section
/-! SUPPORT. What the arithmetic of Machine/Arith.lean gives, once for each function. -/

namespace Sys2Proof.Machine

/-- With ordered limits `clamp` stays between them. -/
theorem clamp_mem {x lo hi : Int} (h : lo ≤ hi) : lo ≤ clamp x lo hi ∧ clamp x lo hi ≤ hi := by
  unfold clamp; omega

/-- `clamp` never exceeds its upper limit, whatever the order of the two. -/
theorem clamp_le_hi (x lo hi : Int) : clamp x lo hi ≤ hi := by unfold clamp; omega

/-- A value between the limits is left alone. -/
theorem clamp_eq_self {x lo hi : Int} (h1 : lo ≤ x) (h2 : x ≤ hi) : clamp x lo hi = x := by unfold clamp; omega

/-- Inverted limits give the upper one (spec/00_scope.md R10). -/
theorem clamp_inverted {x lo hi : Int} (h : hi < lo) : clamp x lo hi = hi := by unfold clamp; omega

theorem satS32_mem (x : Int) : -2147483648 ≤ satS32 x ∧ satS32 x ≤ 2147483647 := clamp_mem (by decide)

/-- An s32 value survives being stored as a word. -/
theorem toS32_toU32 {x : Int} (h1 : -2147483648 ≤ x) (h2 : x ≤ 2147483647) : toS32 (toU32 x) = x := by
  unfold toS32 toU32
  rw [BitVec.toInt_ofInt, Int.bmod_eq_of_le] <;> omega

theorem toS32_mem (w : Word) : -2147483648 ≤ toS32 w ∧ toS32 w ≤ 2147483647 := by
  have := BitVec.two_mul_toInt_lt (x := w)
  have := BitVec.le_two_mul_toInt (x := w)
  unfold toS32; omega

theorem toS16_mem (h : BitVec 16) : -32768 ≤ toS16 h ∧ toS16 h ≤ 32767 := by
  have := BitVec.two_mul_toInt_lt (x := h)
  have := BitVec.le_two_mul_toInt (x := h)
  unfold toS16; omega

/-- The saturating increment as a number. -/
theorem satU16Inc_toNat (c : BitVec 16) : (satU16Inc c).toNat = min (c.toNat + 1) 65535 := by
  have := c.isLt
  unfold satU16Inc
  split
  · next h => subst h; rfl
  · next h =>
    have hne : c.toNat ≠ 65535 := fun e => h (BitVec.eq_of_toNat_eq e)
    rw [BitVec.toNat_add]; simp; omega

/-- Division rounding toward zero, of a non-negative number by a positive one: the floor. -/
theorem tdiv_floor {a b : Int} (ha : 0 ≤ a) (hb : 0 < b) : tdiv a b * b ≤ a ∧ a < (tdiv a b + 1) * b := by
  unfold tdiv
  rw [Int.tdiv_eq_ediv_of_nonneg ha]
  have h1 := Int.mul_ediv_add_emod a b
  have h2 := Int.emod_nonneg a (ne_of_gt hb)
  have h3 := Int.emod_lt_of_pos a hb
  constructor <;> nlinarith

theorem tdiv_nonneg {a b : Int} (ha : 0 ≤ a) (hb : 0 ≤ b) : 0 ≤ tdiv a b := Int.tdiv_nonneg ha hb

theorem tdiv_neg (a b : Int) : tdiv (-a) b = -tdiv a b := Int.neg_tdiv a b

/-- The arithmetic shift is the floor of the quotient by the power of two. -/
theorem asr_floor (a : Int) (n : Nat) : asr a n * 2 ^ n ≤ a ∧ a < (asr a n + 1) * 2 ^ n := by
  unfold asr
  have hp : (0 : Int) < 2 ^ n := by positivity
  have h1 := Int.mul_ediv_add_emod a (2 ^ n)
  have h2 := Int.emod_nonneg a (ne_of_gt hp)
  have h3 := Int.emod_lt_of_pos a hp
  constructor <;> nlinarith

/-- The invariant of the bit-by-bit root: with `k` bits to come, the root found so far is low by less than `2 ^ k`. -/
theorem isqrtFrom_spec (k r n : Nat) (h1 : r * r ≤ n) (h2 : n < (r + 2 ^ k) * (r + 2 ^ k)) :
    isqrtFrom k r n * isqrtFrom k r n ≤ n ∧ n < (isqrtFrom k r n + 1) * (isqrtFrom k r n + 1) := by
  induction k generalizing r with
  | zero => simpa [isqrtFrom] using ⟨h1, h2⟩
  | succ k ih =>
    unfold isqrtFrom
    split
    · exact ih _ ‹_› (by rwa [show r + 2 ^ k + 2 ^ k = r + 2 ^ (k + 1) by ring])
    · exact ih _ h1 (by omega)

/-- `isqrt` is the largest integer whose square is at most `n` (spec/00_scope.md R10). -/
theorem isqrt_spec (n : Nat) : isqrt n * isqrt n ≤ n ∧ n < (isqrt n + 1) * (isqrt n + 1) := by
  refine isqrtFrom_spec _ _ _ (by omega) ?_
  rw [Nat.zero_add, ← pow_add]
  exact lt_of_lt_of_le Nat.lt_log2_self (Nat.pow_le_pow_right (by omega) (by omega))

end Sys2Proof.Machine
end

