-- ==== Sys2Proof/Laws/Decode.lean ====
section
/-! SUPPORT. What decoding and encoding do, field by field. -/

namespace Sys2Proof

/-- The opcode byte of a word made of an opcode byte and an operand. -/
@[simp] theorem opcodeOf_opWord (opc : Opcode) (opd : Word) : opcodeOf (opWord opc opd) = opc := by
  apply BitVec.eq_of_getLsbD_eq
  intro i hi
  simp only [opcodeOf, opWord, BitVec.getLsbD_extractLsb', BitVec.getLsbD_append]
  simp [hi]

/-- The operand of such a word. -/
@[simp] theorem operandOf_opWord (opc : Opcode) (opd : Word) : operandOf (opWord opc opd) = opd := by
  apply BitVec.eq_of_getLsbD_eq
  intro i hi
  simp only [operandOf, opWord, BitVec.getLsbD_extractLsb', BitVec.getLsbD_append]
  simp [hi]

/-- A word is made of its opcode byte and its operand. -/
theorem opWord_fields (w : OpWord) : opWord (opcodeOf w) (operandOf w) = w := by
  simp only [opWord, opcodeOf, operandOf]
  rw [BitVec.extractLsb'_append_extractLsb'_eq_extractLsb' (by decide)]
  simp

/-- Decoding a word, by its opcode byte and its operand. -/
theorem decode_opWord (opc : Opcode) (opd : Word) :
    decode (opWord opc opd) =
      if opc.extractLsb' 6 2 = 0b10#2 then .ok (.wrReg (opc.extractLsb' 0 6) opd)
      else if opc.extractLsb' 6 2 = 0b11#2 then zeroOperand (.rdReg (opc.extractLsb' 0 6)) opd
      else decodeEngine opc opd := by
  simp only [decode, opcodeOf_opWord, operandOf_opWord]

/-- The two ways a word is no operation. -/
theorem decode_cases (w : OpWord) : (∃ i, decode w = .ok i) ∨ ∃ e, decode w = .error e := by
  cases h : decode w with
  | ok i => exact .inl ⟨i, rfl⟩
  | error e => exact .inr ⟨e, rfl⟩

end Sys2Proof
end

