-- ==== Sys2Proof/Laws/State.lean ====
section
/-! SUPPORT. One lemma per field of the state and per update of Machine/Ops.lean, each true by unfolding: no later proof
unfolds a record update. -/

namespace Sys2Proof.Machine

/-! ### respond -/

@[simp] theorem respond_host (v : Word) (s : State) : (respond v s).host = s.host := rfl
@[simp] theorem respond_status (v : Word) (s : State) : (respond v s).status = s.status := rfl
@[simp] theorem respond_hall (v : Word) (s : State) : (respond v s).hall = s.hall := rfl
@[simp] theorem respond_out (v : Word) (s : State) : (respond v s).out = s.out := rfl
@[simp] theorem respond_stg (v : Word) (s : State) : (respond v s).stg = s.stg := rfl
@[simp] theorem respond_lastErr (v : Word) (s : State) : (respond v s).lastErr = s.lastErr := rfl
@[simp] theorem respond_pid (v : Word) (s : State) : (respond v s).pid = s.pid := rfl
@[simp] theorem respond_svm (v : Word) (s : State) : (respond v s).svm = s.svm := rfl
@[simp] theorem respond_hallIn (v : Word) (s : State) : (respond v s).hallIn = s.hallIn := rfl
@[simp] theorem respond_stream (v : Word) (s : State) : (respond v s).stream = s.stream := rfl
@[simp] theorem respond_resp (v : Word) (s : State) : (respond v s).resp = some ⟨0, v⟩ := rfl
@[simp] theorem respond_events (v : Word) (s : State) : (respond v s).events = s.events := rfl

/-! ### emit -/

@[simp] theorem emit_host (e : Event) (s : State) : (emit e s).host = s.host := rfl
@[simp] theorem emit_status (e : Event) (s : State) : (emit e s).status = s.status := rfl
@[simp] theorem emit_hall (e : Event) (s : State) : (emit e s).hall = s.hall := rfl
@[simp] theorem emit_out (e : Event) (s : State) : (emit e s).out = s.out := rfl
@[simp] theorem emit_stg (e : Event) (s : State) : (emit e s).stg = s.stg := rfl
@[simp] theorem emit_lastErr (e : Event) (s : State) : (emit e s).lastErr = s.lastErr := rfl
@[simp] theorem emit_pid (e : Event) (s : State) : (emit e s).pid = s.pid := rfl
@[simp] theorem emit_svm (e : Event) (s : State) : (emit e s).svm = s.svm := rfl
@[simp] theorem emit_hallIn (e : Event) (s : State) : (emit e s).hallIn = s.hallIn := rfl
@[simp] theorem emit_stream (e : Event) (s : State) : (emit e s).stream = s.stream := rfl
@[simp] theorem emit_resp (e : Event) (s : State) : (emit e s).resp = s.resp := rfl
@[simp] theorem emit_events (e : Event) (s : State) : (emit e s).events = s.events ++ [e] := rfl

/-! ### stage -/

@[simp] theorem stage_host (b : Bank) (s : State) : (stage b s).host = s.host := rfl
@[simp] theorem stage_status (b : Bank) (s : State) : (stage b s).status = s.status := rfl
@[simp] theorem stage_hall (b : Bank) (s : State) : (stage b s).hall = s.hall := rfl
@[simp] theorem stage_out (b : Bank) (s : State) : (stage b s).out = s.out := rfl
@[simp] theorem stage_stg (b : Bank) (s : State) : (stage b s).stg = b := rfl
@[simp] theorem stage_lastErr (b : Bank) (s : State) : (stage b s).lastErr = s.lastErr := rfl
@[simp] theorem stage_pid (b : Bank) (s : State) : (stage b s).pid = s.pid := rfl
@[simp] theorem stage_svm (b : Bank) (s : State) : (stage b s).svm = s.svm := rfl
@[simp] theorem stage_hallIn (b : Bank) (s : State) : (stage b s).hallIn = s.hallIn := rfl
@[simp] theorem stage_stream (b : Bank) (s : State) : (stage b s).stream = s.stream := rfl
@[simp] theorem stage_resp (b : Bank) (s : State) : (stage b s).resp = s.resp := rfl
@[simp] theorem stage_events (b : Bank) (s : State) : (stage b s).events = s.events := rfl

/-! ### commit -/

@[simp] theorem commit_host (s : State) : (commit s).host = s.host := rfl
@[simp] theorem commit_status (s : State) : (commit s).status = s.status := rfl
@[simp] theorem commit_hall (s : State) : (commit s).hall = s.hall := rfl
@[simp] theorem commit_out (s : State) : (commit s).out = s.stg := rfl
@[simp] theorem commit_stg (s : State) : (commit s).stg = s.stg := rfl
@[simp] theorem commit_lastErr (s : State) : (commit s).lastErr = s.lastErr := rfl
@[simp] theorem commit_pid (s : State) : (commit s).pid = s.pid := rfl
@[simp] theorem commit_svm (s : State) : (commit s).svm = s.svm := rfl
@[simp] theorem commit_hallIn (s : State) : (commit s).hallIn = s.hallIn := rfl
@[simp] theorem commit_stream (s : State) : (commit s).stream = s.stream := rfl
@[simp] theorem commit_resp (s : State) : (commit s).resp = s.resp := rfl
@[simp] theorem commit_events (s : State) : (commit s).events = s.events ++ [.commit] := rfl

/-! ### forceOff -/

@[simp] theorem forceOff_host (s : State) : (forceOff s).host = s.host := rfl
@[simp] theorem forceOff_status (s : State) : (forceOff s).status = s.status := rfl
@[simp] theorem forceOff_hall (s : State) : (forceOff s).hall = s.hall := rfl
@[simp] theorem forceOff_out (s : State) : (forceOff s).out = Bank.off := rfl
@[simp] theorem forceOff_stg (s : State) : (forceOff s).stg = Bank.off := rfl
@[simp] theorem forceOff_lastErr (s : State) : (forceOff s).lastErr = s.lastErr := rfl
@[simp] theorem forceOff_pid (s : State) : (forceOff s).pid = s.pid := rfl
@[simp] theorem forceOff_svm (s : State) : (forceOff s).svm = s.svm := rfl
@[simp] theorem forceOff_hallIn (s : State) : (forceOff s).hallIn = s.hallIn := rfl
@[simp] theorem forceOff_stream (s : State) : (forceOff s).stream = s.stream := rfl
@[simp] theorem forceOff_resp (s : State) : (forceOff s).resp = s.resp := rfl
@[simp] theorem forceOff_events (s : State) : (forceOff s).events = s.events ++ [.commit] := rfl

/-! ### raiseOpError -/

@[simp] theorem raiseOpError_host (opc : Opcode) (e : OpErr) (s : State) : (raiseOpError opc e s).host = s.host := rfl
@[simp] theorem raiseOpError_status (opc : Opcode) (e : OpErr) (s : State) : (raiseOpError opc e s).status = { s.status with opErr := true } := rfl
@[simp] theorem raiseOpError_hall (opc : Opcode) (e : OpErr) (s : State) : (raiseOpError opc e s).hall = s.hall := rfl
@[simp] theorem raiseOpError_out (opc : Opcode) (e : OpErr) (s : State) : (raiseOpError opc e s).out = s.out := rfl
@[simp] theorem raiseOpError_stg (opc : Opcode) (e : OpErr) (s : State) : (raiseOpError opc e s).stg = s.stg := rfl
@[simp] theorem raiseOpError_lastErr (opc : Opcode) (e : OpErr) (s : State) : (raiseOpError opc e s).lastErr = ⟨opErrCode e, opc⟩ := rfl
@[simp] theorem raiseOpError_pid (opc : Opcode) (e : OpErr) (s : State) : (raiseOpError opc e s).pid = s.pid := rfl
@[simp] theorem raiseOpError_svm (opc : Opcode) (e : OpErr) (s : State) : (raiseOpError opc e s).svm = s.svm := rfl
@[simp] theorem raiseOpError_hallIn (opc : Opcode) (e : OpErr) (s : State) : (raiseOpError opc e s).hallIn = s.hallIn := rfl
@[simp] theorem raiseOpError_stream (opc : Opcode) (e : OpErr) (s : State) : (raiseOpError opc e s).stream = s.stream := rfl
@[simp] theorem raiseOpError_resp (opc : Opcode) (e : OpErr) (s : State) : (raiseOpError opc e s).resp = some ⟨opErrCode e, 0⟩ := rfl
@[simp] theorem raiseOpError_events (opc : Opcode) (e : OpErr) (s : State) : (raiseOpError opc e s).events = s.events := rfl

/-! ### enterFault -/

@[simp] theorem enterFault_host (s : State) : (enterFault s).host = s.host := rfl
@[simp] theorem enterFault_status (s : State) : (enterFault s).status = { s.status with hallEn := false, faultStall := true } := rfl
@[simp] theorem enterFault_hall (s : State) : (enterFault s).hall = { s.hall with step := 0, hallLast := 0, faultCode := stallTimeout } := rfl
@[simp] theorem enterFault_out (s : State) : (enterFault s).out = Bank.off := rfl
@[simp] theorem enterFault_stg (s : State) : (enterFault s).stg = Bank.off := rfl
@[simp] theorem enterFault_lastErr (s : State) : (enterFault s).lastErr = s.lastErr := rfl
@[simp] theorem enterFault_pid (s : State) : (enterFault s).pid = s.pid := rfl
@[simp] theorem enterFault_svm (s : State) : (enterFault s).svm = s.svm := rfl
@[simp] theorem enterFault_hallIn (s : State) : (enterFault s).hallIn = s.hallIn := rfl
@[simp] theorem enterFault_stream (s : State) : (enterFault s).stream = s.stream := rfl
@[simp] theorem enterFault_resp (s : State) : (enterFault s).resp = s.resp := rfl
@[simp] theorem enterFault_events (s : State) : (enterFault s).events = (s.events ++ [.commit]) ++ [.fault stallTimeout] := rfl

/-! ### rearm -/

@[simp] theorem rearm_host (s : State) : (rearm s).host = s.host := rfl
@[simp] theorem rearm_status (s : State) : (rearm s).status = { s.status with hallEn := true, faultStall := false } := rfl
@[simp] theorem rearm_hall (s : State) : (rearm s).hall = { s.hall with faultCode := 0, stallCnt := 0 } := rfl
@[simp] theorem rearm_out (s : State) : (rearm s).out = s.out := rfl
@[simp] theorem rearm_stg (s : State) : (rearm s).stg = s.stg := rfl
@[simp] theorem rearm_lastErr (s : State) : (rearm s).lastErr = s.lastErr := rfl
@[simp] theorem rearm_pid (s : State) : (rearm s).pid = s.pid := rfl
@[simp] theorem rearm_svm (s : State) : (rearm s).svm = s.svm := rfl
@[simp] theorem rearm_hallIn (s : State) : (rearm s).hallIn = s.hallIn := rfl
@[simp] theorem rearm_stream (s : State) : (rearm s).stream = s.stream := rfl
@[simp] theorem rearm_resp (s : State) : (rearm s).resp = s.resp := rfl
@[simp] theorem rearm_events (s : State) : (rearm s).events = s.events := rfl

/-! ### clearOutputs -/

@[simp] theorem clearOutputs_host (s : State) : (clearOutputs s).host = s.host := rfl
@[simp] theorem clearOutputs_status (s : State) : (clearOutputs s).status = s.status := rfl
@[simp] theorem clearOutputs_hall (s : State) : (clearOutputs s).hall = s.hall := rfl
@[simp] theorem clearOutputs_out (s : State) : (clearOutputs s).out = s.out := rfl
@[simp] theorem clearOutputs_stg (s : State) : (clearOutputs s).stg = s.stg := rfl
@[simp] theorem clearOutputs_lastErr (s : State) : (clearOutputs s).lastErr = s.lastErr := rfl
@[simp] theorem clearOutputs_pid (s : State) : (clearOutputs s).pid = s.pid := rfl
@[simp] theorem clearOutputs_svm (s : State) : (clearOutputs s).svm = s.svm := rfl
@[simp] theorem clearOutputs_hallIn (s : State) : (clearOutputs s).hallIn = s.hallIn := rfl
@[simp] theorem clearOutputs_stream (s : State) : (clearOutputs s).stream = s.stream := rfl
@[simp] theorem clearOutputs_resp (s : State) : (clearOutputs s).resp = none := rfl
@[simp] theorem clearOutputs_events (s : State) : (clearOutputs s).events = [] := rfl

/-! ### withFetchWord -/

@[simp] theorem State.withFetchWord_host (s : State) (nbits w : Nat) : (s.withFetchWord nbits w).host = s.host := rfl
@[simp] theorem State.withFetchWord_status (s : State) (nbits w : Nat) : (s.withFetchWord nbits w).status = s.status := rfl
@[simp] theorem State.withFetchWord_hall (s : State) (nbits w : Nat) : (s.withFetchWord nbits w).hall = s.hall := rfl
@[simp] theorem State.withFetchWord_out (s : State) (nbits w : Nat) : (s.withFetchWord nbits w).out = s.out := rfl
@[simp] theorem State.withFetchWord_stg (s : State) (nbits w : Nat) : (s.withFetchWord nbits w).stg = s.stg := rfl
@[simp] theorem State.withFetchWord_lastErr (s : State) (nbits w : Nat) : (s.withFetchWord nbits w).lastErr = s.lastErr := rfl
@[simp] theorem State.withFetchWord_pid (s : State) (nbits w : Nat) : (s.withFetchWord nbits w).pid = s.pid := rfl
@[simp] theorem State.withFetchWord_svm (s : State) (nbits w : Nat) : (s.withFetchWord nbits w).svm = s.svm := rfl
@[simp] theorem State.withFetchWord_hallIn (s : State) (nbits w : Nat) : (s.withFetchWord nbits w).hallIn = s.hallIn := rfl
@[simp] theorem State.withFetchWord_stream (s : State) (nbits w : Nat) : (s.withFetchWord nbits w).stream = ⟨tableWord nbits w, s.hallIn⟩ :: s.stream := rfl
@[simp] theorem State.withFetchWord_resp (s : State) (nbits w : Nat) : (s.withFetchWord nbits w).resp = s.resp := rfl
@[simp] theorem State.withFetchWord_events (s : State) (nbits w : Nat) : (s.withFetchWord nbits w).events = s.events := rfl

end Sys2Proof.Machine
end

