-- ==== Sys2Proof/Laws/Ops.lean ====
section
/-! SUPPORT. For each shared operation and each meaning, one lemma that says everything it can do. -/

namespace Sys2Proof.Machine

/-- The instance of the test vectors is well formed (spec/00_scope.md R7, last sentence). -/
theorem sample_wf : Config.WF Config.sample := by decide

/-- The configuration in force is well formed, whatever the implementation chose. -/
theorem machineCfg_wf : Config.WF machineCfg := by
  unfold machineCfg
  split
  · assumption
  · exact sample_wf

/-! ### Facts of a well-formed record -/

theorem mem_oneToSix {c : BitVec 3} : c ∈ Config.oneToSix ↔ c ≠ 0 ∧ c ≠ 7 := by
  revert c; decide

theorem hallStepMap_valid {c : Cfg} (h : Config.WF c) (dir : BitVec 1) {code : BitVec 3} (h0 : code ≠ 0) (h7 : code ≠ 7) :
    c.hallStepMap dir code ≠ 0 ∧ c.hallStepMap dir code ≠ 7 := by
  have hd : dir = 0 ∨ dir = 1 := by revert dir; decide
  have hc := mem_oneToSix.2 ⟨h0, h7⟩
  obtain ⟨-, -, ⟨-, -, m0, -⟩, ⟨-, -, m1, -⟩, -⟩ := h
  rcases hd with rfl | rfl
  · exact mem_oneToSix.1 (m0 code hc)
  · exact mem_oneToSix.1 (m1 code hc)

theorem stepPattern_apart {c : Cfg} (h : Config.WF c) {st : BitVec 3} (h0 : st ≠ 0) (h7 : st ≠ 7) :
    (c.stepPattern st).1 ≠ (c.stepPattern st).2 :=
  h.2.2.2.2.1 st (mem_oneToSix.2 ⟨h0, h7⟩)

theorem liveDuty_toNat (h : HostRegs) : (liveDuty h).toNat = min h.pulse.toNat h.pwmPeriod.toNat := by
  unfold liveDuty
  split <;> rename_i hh <;> simp only [BitVec.le_def] at hh <;> omega

/-! ### Fetch and step -/

theorem fetchOp_nil {s : State} (h : s.stream = []) : fetchOp s = none := by simp [fetchOp, h]

theorem fetchOp_cons {s : State} {op : Issue} {rest : List Issue} (h : s.stream = op :: rest) :
    fetchOp s = some (op.word, { clearOutputs s with stream := rest, hallIn := op.hallIn }) := by simp [fetchOp, h]

/-- What one step can be: idle, the decoded operation, or the error of a word that is none. -/
theorem step_cases (s : State) :
    (s.stream = [] ∧ step s = .next (clearOutputs s)) ∨
    (∃ op rest i, s.stream = op :: rest ∧ decode op.word = .ok i ∧
      step s = exec i { clearOutputs s with stream := rest, hallIn := op.hallIn }) ∨
    (∃ op rest e, s.stream = op :: rest ∧ decode op.word = .error e ∧
      step s = .next (raiseOpError (opcodeOf op.word) (opErrOfDecode e)
        { clearOutputs s with stream := rest, hallIn := op.hallIn })) := by
  cases hs : s.stream with
  | nil => exact .inl ⟨rfl, by simp [step, fetchOp_nil hs]⟩
  | cons op rest =>
    cases hd : decode op.word with
    | ok i => exact .inr (.inl ⟨op, rest, i, rfl, hd, by simp [step, fetchOp_cons hs, hd]⟩)
    | error e => exact .inr (.inr ⟨op, rest, e, rfl, hd, by simp [step, fetchOp_cons hs, hd]⟩)

/-! ### The meanings, each by its cases -/

theorem hallComm_disarmed (c : Cfg) (code : BitVec 3) {s : State} (h : s.status.hallEn = false) :
    hallComm c code s = respond (s.hall.step.setWidth 32) s := by simp [hallComm, h]

theorem hallComm_invalid (c : Cfg) {code : BitVec 3} {s : State} (h : s.status.hallEn = true) (hc : code = 0 ∨ code = 7) :
    hallComm c code s = invalidCode s := by
  rw [hallComm, if_neg (by simp [h]), if_pos hc]

theorem hallComm_valid (c : Cfg) {code : BitVec 3} {s : State} (h : s.status.hallEn = true) (h0 : code ≠ 0) (h7 : code ≠ 7) :
    hallComm c code s = commutate c code (c.hallStepMap s.host.dir code) s := by
  rw [hallComm, if_neg (by simp [h]), if_neg (by tauto)]

theorem execHallTick_disarmed {s : State} (h : s.status.hallEn = false) :
    execHallTick s = .next (respond 0 s) := by simp [execHallTick, h]

theorem execHallTick_fault {s : State} (h : s.status.hallEn = true) (ht : s.host.stallThr < satU16Inc s.hall.stallCnt) :
    execHallTick s = .next (respond 0 (enterFault { s with hall.stallCnt := satU16Inc s.hall.stallCnt })) := by
  simp [execHallTick, h, ht]

theorem execHallTick_count {s : State} (h : s.status.hallEn = true) (ht : ¬ s.host.stallThr < satU16Inc s.hall.stallCnt) :
    execHallTick s = .next (respond 0 { s with hall.stallCnt := satU16Inc s.hall.stallCnt }) := by
  simp [execHallTick, h, ht]

theorem execHallArm_ok {s : State} (h : s.host.mode = 1) : execHallArm s = .next (respond 0 (rearm s)) := by
  simp [execHallArm, h]

theorem execHallArm_wrongMode {s : State} (h : s.host.mode ≠ 1) :
    execHallArm s = .next (raiseOpError 0x03 .wrongMode s) := by rw [execHallArm, if_neg h]

theorem svmCompute_ok (c : Cfg) (alpha beta : BitVec 16) {s : State} (h : s.host.mode = 2) :
    svmCompute c alpha beta s = svmFinish (svmStep c (toS16 alpha) (toS16 beta)) s := by simp [svmCompute, h]

theorem svmCompute_wrongMode (c : Cfg) (alpha beta : BitVec 16) {s : State} (h : s.host.mode ≠ 2) :
    svmCompute c alpha beta s = raiseOpError 0x20 .wrongMode s := by rw [svmCompute, if_neg h]

/-! ### The projection and the OVM_MODE_2 transform -/

@[simp] theorem project_x (ac bc : Int) : (project ac bc).x = 2 * axisTerm bc := rfl
@[simp] theorem project_y (ac bc : Int) : (project ac bc).y = ac + axisTerm bc := rfl
@[simp] theorem project_z (ac bc : Int) : (project ac bc).z = -ac + axisTerm bc := rfl

theorem effectiveGamma_mem (gam : Int) : 0 ≤ effectiveGamma gam ∧ effectiveGamma gam ≤ 17156 := clamp_mem (by decide)

theorem reshape_zero {t : Dwell} (h : t.t1 + t.t2 = 0) (gam : Int) : reshape t gam = ⟨0, 0⟩ := by simp [reshape, h]

theorem reshape_nonzero {t : Dwell} (h : t.t1 + t.t2 ≠ 0) (gam : Int) :
    (reshape t gam).t1 = min (tdiv (max (edgeShare t - holdOffset (effectiveGamma gam)) 0 * 17157)
      (17157 - effectiveGamma gam)) 32768 ∧
    (reshape t gam).t2 = 32768 - (reshape t gam).t1 := by
  rw [reshape, if_neg h]; exact ⟨rfl, rfl⟩

/-- What a write of a mapped register can do: it is accepted, or it raises one of three errors. -/
theorem writeReg_cases (opc : Opcode) (r : Reg) (val : Word) (s : State) :
    (regWritable r = true ∧ regValueLegal r val = true ∧ ¬(r = .mode ∧ s.status.hallEn = true) ∧
      writeReg opc r val s = acceptWrite r val s) ∨
    (regWritable r = false ∧ writeReg opc r val s = raiseOpError opc .badRegister s) ∨
    (regWritable r = true ∧ regValueLegal r val = false ∧ writeReg opc r val s = raiseOpError opc .illegalOperand s) ∨
    (r = .mode ∧ s.status.hallEn = true ∧ regValueLegal r val = true ∧
      writeReg opc r val s = raiseOpError opc .wrongMode s) := by
  unfold writeReg
  cases hw : regWritable r <;> cases hv : regValueLegal r val <;> by_cases hm : r = .mode ∧ s.status.hallEn = true <;>
    simp_all

/-- A read or a write of a number goes to the register of that number, if there is one. -/
theorem regOfNumber_regNumber (r : Reg) : regOfNumber (regNumber r) = some r := by cases r <;> decide

theorem execWrReg_mapped {n : RegNum} {r : Reg} (h : regOfNumber n = some r) (val : Word) (s : State) :
    execWrReg n val s = .next (writeReg (wrOpcode n) r val s) := by simp [execWrReg, h]

theorem execWrReg_unmapped {n : RegNum} (h : regOfNumber n = none) (val : Word) (s : State) :
    execWrReg n val s = .next (raiseOpError (wrOpcode n) .badRegister s) := by simp [execWrReg, h]

theorem execRdReg_mapped {n : RegNum} {r : Reg} (h : regOfNumber n = some r) (s : State) :
    execRdReg n s = .next (respond (readReg r s) s) := by simp [execRdReg, h]

theorem execRdReg_unmapped {n : RegNum} (h : regOfNumber n = none) (s : State) :
    execRdReg n s = .next (raiseOpError (rdOpcode n) .badRegister s) := by simp [execRdReg, h]

end Sys2Proof.Machine
end

