-- ==== Sys2Proof/Laws/PerInstr.lean ====
section
/-! SUPPORT. Families of facts about operations as syntax, one lemma per constructor. -/

namespace Sys2Proof.Laws

/-- A second spelling has the word of the operation it stands for, and that operation is no second spelling itself
(spec/30_encoding.md R113, R116). -/
def SameWord.Statement (i : Instr) : Prop := encode i.core = encode i ∧ i.core.core = i.core

theorem SameWord.nop : SameWord.Statement .nop := ⟨rfl, rfl⟩
theorem SameWord.hallComm (code : BitVec 3) : SameWord.Statement (.hallComm code) := ⟨rfl, rfl⟩
theorem SameWord.hallTick : SameWord.Statement .hallTick := ⟨rfl, rfl⟩
theorem SameWord.hallArm : SameWord.Statement .hallArm := ⟨rfl, rfl⟩
theorem SameWord.hallStop : SameWord.Statement .hallStop := ⟨rfl, rfl⟩
theorem SameWord.pidUpdate (measured : Word) : SameWord.Statement (.pidUpdate measured) := ⟨rfl, rfl⟩
theorem SameWord.pidReset : SameWord.Statement .pidReset := ⟨rfl, rfl⟩
theorem SameWord.svmCompute (alpha beta : BitVec 16) : SameWord.Statement (.svmCompute alpha beta) := ⟨rfl, rfl⟩
theorem SameWord.wrReg (reg : RegNum) (val : Word) : SameWord.Statement (.wrReg reg val) := ⟨rfl, rfl⟩
theorem SameWord.rdReg (reg : RegNum) : SameWord.Statement (.rdReg reg) := ⟨rfl, rfl⟩
theorem SameWord.cfgMode (val : Word) : SameWord.Statement (.cfgMode val) := ⟨rfl, rfl⟩
theorem SameWord.cfgDir (val : Word) : SameWord.Statement (.cfgDir val) := ⟨rfl, rfl⟩
theorem SameWord.cfgStallthr (val : Word) : SameWord.Statement (.cfgStallthr val) := ⟨rfl, rfl⟩
theorem SameWord.cfgPeriod (val : Word) : SameWord.Statement (.cfgPeriod val) := ⟨rfl, rfl⟩
theorem SameWord.setPulse (val : Word) : SameWord.Statement (.setPulse val) := ⟨rfl, rfl⟩
theorem SameWord.cfgRoute (val : Word) : SameWord.Statement (.cfgRoute val) := ⟨rfl, rfl⟩
theorem SameWord.pidTarget (val : Word) : SameWord.Statement (.pidTarget val) := ⟨rfl, rfl⟩
theorem SameWord.pidKp (val : Word) : SameWord.Statement (.pidKp val) := ⟨rfl, rfl⟩
theorem SameWord.pidKi (val : Word) : SameWord.Statement (.pidKi val) := ⟨rfl, rfl⟩
theorem SameWord.pidKd (val : Word) : SameWord.Statement (.pidKd val) := ⟨rfl, rfl⟩
theorem SameWord.clrFlags (val : Word) : SameWord.Statement (.clrFlags val) := ⟨rfl, rfl⟩
theorem SameWord.rdHall : SameWord.Statement .rdHall := ⟨rfl, rfl⟩

end Sys2Proof.Laws
end

