-- ==== Sys2Proof/Tests/Slice0.lean ====
section
/-! SUPPORT. Tests.  Every expected value is the spec's own (spec/95_test_vectors.md, spec/96_test_vectors_svm.md, the examples
of the rules); then, for each statement with hypotheses, a state and operands that meet them. -/

namespace Sys2Proof.Tests
open Sys2Proof.Machine

/-! ### Well-formedness: an ill-formed term for each check -/

/-- Unmapped numbers, at both ends of each gap of spec/10_state.md R65. -/
theorem test_wf_unmapped :
    (∀ n ∈ ([0x06, 0x07, 0x1F, 0x25, 0x27, 0x2D, 0x3F] : List RegNum),
      (Instr.wrReg n 0).wf = false ∧ (Instr.rdReg n).wf = false) ∧
    (∀ n ∈ ([0x05, 0x08, 0x1E, 0x20, 0x24, 0x28, 0x2C] : List RegNum), (Instr.rdReg n).wf = true) := by decide

/-- A read-only register and the volatile input cannot be written (spec/44_register_access.md R202). -/
theorem test_wf_readOnly : (Instr.wrReg 0x14 1).wf = false ∧ (Instr.wrReg 0x1C 1).wf = false := by decide

/-- A value must fit the register (spec/44_register_access.md R191). -/
theorem test_wf_width : (Instr.wrReg 0x02 0x10000).wf = false ∧ (Instr.cfgDir 2).wf = false ∧
    (Instr.cfgRoute 2).wf = false ∧ (Instr.setPulse 65536).wf = false ∧ (Instr.setPulse 65535).wf = true := by decide

/-- `MODE` takes 0, 1, 2 (spec/44_register_access.md R193). -/
theorem test_wf_mode : (Instr.cfgMode 3).wf = false ∧ (Instr.wrReg 0x00 7).wf = false ∧ (Instr.cfgMode 2).wf = true := by
  decide

/-- `STATUS` and the s32 registers take every value. -/
theorem test_wf_every : (Instr.clrFlags 0xFFFFFFFF).wf = true ∧ (Instr.pidKp 0xFFFF8000).wf = true ∧
    (Instr.wrReg 0x0C 0x80000000).wf = true := by decide

/-- A record that breaks each item of `WF(Cfg)` (spec/00_scope.md R7) is refused. -/
theorem test_cfg_illFormed :
    ∀ c ∈ ([{ Config.sample with vrefM1Start := 0 }, { Config.sample with vrefM2Start := 32769 },
            { Config.sample with vrefM2End := 46342 }, { Config.sample with vrefIdxStep := 0 },
            { Config.sample with vrefIdxStep := 15 }, { Config.sample with gammaIdxOffset := 90 },
            { Config.sample with gammaIdxOffset := -1 }, { Config.sample with hallStepMap := fun _ _ => 1 },
            { Config.sample with stepPattern := fun _ => (.a, .b) }] : List Cfg), ¬ Config.WF c := by decide

/-! ### Decoding: words written out from the encoding (spec/30_encoding.md R102 to R108, R115; 95 section 2.5) -/

theorem test_decode_nop : decodeTableWord 40 0x0000000000 = some .nop := by decide
theorem test_decode_hallComm : decodeTableWord 40 0x0100000005 = some (.hallComm 5) := by decide
theorem test_decode_hallTick : decodeTableWord 40 0x0200000000 = some .hallTick := by decide
theorem test_decode_hallArm : decodeTableWord 40 0x0300000000 = some .hallArm := by decide
theorem test_decode_hallStop : decodeTableWord 40 0x0400000000 = some .hallStop := by decide
theorem test_decode_pidUpdate : decodeTableWord 40 0x10FFFFFFFD = some (.pidUpdate (BitVec.ofInt 32 (-3))) := by decide
theorem test_decode_pidReset : decodeTableWord 40 0x1100000000 = some .pidReset := by decide
theorem test_decode_svmCompute :
    decodeTableWord 40 0x2055F0AA10 = some (.svmCompute (BitVec.ofInt 16 22000) (BitVec.ofInt 16 (-22000))) := by decide
theorem test_decode_wrReg : decodeTableWord 40 0x8400000834 = some (.wrReg (regNumber .pulse) 2100) := by decide
theorem test_decode_rdReg : decodeTableWord 40 0xEC00000000 = some (.rdReg (regNumber .ovmErrCnt)) := by decide

/-- The words of the twelve second spellings, which decode to the operation they stand for (R113, R116). -/
theorem test_words_secondSpellings :
    ∀ row ∈ ([(.cfgMode 1, 0x8000000001, .wrReg (regNumber .mode) 1), (.cfgDir 1, 0x8100000001, .wrReg (regNumber .dir) 1),
              (.cfgStallthr 5, 0x8200000005, .wrReg (regNumber .stallThr) 5),
              (.cfgPeriod 8400, 0x83000020D0, .wrReg (regNumber .pwmPeriod) 8400),
              (.setPulse 2100, 0x8400000834, .wrReg (regNumber .pulse) 2100),
              (.cfgRoute 1, 0x8500000001, .wrReg (regNumber .pidRoute) 1),
              (.pidTarget 0xFFFFFA24, 0x88FFFFFA24, .wrReg (regNumber .pidTarget) 0xFFFFFA24),
              (.pidKp 0x18000, 0x8900018000, .wrReg (regNumber .pidKp) 0x18000),
              (.pidKi 0x8000, 0x8A00008000, .wrReg (regNumber .pidKi) 0x8000),
              (.pidKd 0x10000, 0x8B00010000, .wrReg (regNumber .pidKd) 0x10000),
              (.clrFlags 0x1C, 0x900000001C, .wrReg (regNumber .status) 0x1C),
              (.rdHall, 0xDC00000000, .rdReg (regNumber .hallIn))] : List (Instr × Nat × Instr)),
      encode row.1 = BitVec.ofNat 40 row.2.1 ∧ decodeTableWord 40 row.2.1 = some row.2.2 ∧ row.1.core = row.2.2 := by
  decide

/-- No two rows of the opcode map share a word (R108), and each row's own pattern selects it. -/
theorem test_rows_disjoint :
    opcodeRows.Pairwise (fun r r' => r.pattern &&& r.mask &&& r'.mask ≠ r'.pattern &&& r.mask &&& r'.mask) ∧
    (∀ r ∈ opcodeRows, r.selects r.pattern = true ∧
      (decodeTableWord 40 r.pattern.toNat).map Instr.mnemonic = some r.mnemonic) := by decide

/-- The pseudo-operations of two words (R113). -/
theorem test_pseudo_expand :
    (Pseudo.commutate 5 1).expand.map encode = [0x8100000001, 0x0100000005] ∧
    Pseudo.restart.expand.map encode = [0x1100000000, 0x0300000000] ∧
    (Pseudo.pidOutlim 0xFFFFFFFF 8400).expand.map encode = [0x8CFFFFFFFF, 0x8D000020D0] ∧
    (Pseudo.pidIntlim 0xFFFFF830 2000).expand.map encode = [0x8EFFFFF830, 0x8F000007D0] := by decide

/-! ### Steps -/

/-- The next state of an outcome. -/
def nextOf (o : Host.Outcome State Fault Refusal) : Option State :=
  match o with
  | .next s => some s
  | .fault _ => none
  | .refused _ => none

/-- The response, the error record and `STATUS` after running one word from a state. -/
def oneWord (w : Nat) (s : State) : Option (Option Response × Word × Word) :=
  (nextOf (step (s.withFetchWord 40 w))).map (fun t => (t.resp, readReg .lastErr t, readReg .status t))

/-- The set-up state of 95 section 2.1: period 8400, pulse 2100, six-step mode, armed. -/
def armed : State :=
  { State.reset with
    host := { State.reset.host with mode := 1, pwmPeriod := 8400, pulse := 2100 }
    status.hallEn := true }

/-- Space-vector mode with period 8400. -/
def modulating : State := { State.reset with host := { State.reset.host with mode := 2, pwmPeriod := 8400 } }

/-- Armed, after `HALL.COMM 3`: phase B driven, gate C. -/
def driving : State := hallComm Config.sample 3 armed

/-- A faulted state: `STALL_THR = 0` and one tick. -/
def faulted : State :=
  { State.reset with
    host := { State.reset.host with mode := 1 }
    status.faultStall := true
    hall := { State.reset.hall with stallCnt := 1, faultCode := 1 } }

/-- A first operation runs from reset: 95 section 2.4.1 rows 1, 2, 11, 13 and a read of 2.4.2. -/
theorem test_step_fromReset :
    oneWord 0x0500000000 State.reset = some (some ⟨1, 0⟩, 0x501, 0x10) ∧
    oneWord 0x0100000008 State.reset = some (some ⟨2, 0⟩, 0x102, 0x10) ∧
    oneWord 0x0300000000 State.reset = some (some ⟨3, 0⟩, 0x303, 0x10) ∧
    oneWord 0x0000000001 State.reset = some (some ⟨2, 0⟩, 0x002, 0x10) ∧
    oneWord 0xC200000000 State.reset = some (some ⟨0, 2⟩, 0, 0) := by decide

/-- Check order (95 section 2.4.1 rows 3, 9, 18, 19). -/
theorem test_step_checkOrder :
    oneWord 0x86FFFFFFFF State.reset = some (some ⟨4, 0⟩, 0x8604, 0x10) ∧
    oneWord 0xFF00000001 State.reset = some (some ⟨2, 0⟩, 0xFF02, 0x10) ∧
    oneWord 0x8000000003 armed = some (some ⟨2, 0⟩, 0x8002, 0x11) ∧
    oneWord 0x8000000002 armed = some (some ⟨3, 0⟩, 0x8003, 0x11) := by decide

/-- `NOP` (95 section 2.4.2). -/
theorem test_nop : nextOf (exec .nop driving) = some { driving with resp := some ⟨0, 0⟩ } := by decide

/-- The twelve cases, forward and reverse codes 3 and 4 (95 section 2.1.1). -/
theorem test_hallComm :
    driving.out = ⟨0, 2100, 0, 0b100⟩ ∧ readReg .hallState driving = 0x1B ∧
    (hallComm Config.sample 4 { armed with host.dir := 1 }).out = ⟨0, 2100, 0, 0b100⟩ ∧
    readReg .hallState (hallComm Config.sample 4 { armed with host.dir := 1 }) = 0x23 ∧
    (hallComm Config.sample 4 armed).out = ⟨0, 0, 2100, 0b010⟩ := by decide

/-- The third tick with `STALL_THR = 2` faults (example of spec/41_hall_commutation.md R128). -/
theorem test_hallTick :
    (nextOf (exec .hallTick { driving with hall.stallCnt := 2 })).map
      (fun t => (readReg .status t, t.out, t.hall, t.events)) =
      some (2, Bank.off, ⟨0, 0, 3, 0, 1⟩, [.commit, .commit, .fault 1]) ∧
    (nextOf (exec .hallTick { driving with hall.stallCnt := 1 })).map (fun t => (t.hall.stallCnt, t.out)) =
      some (2, driving.out) := by decide

/-- `HALL.ARM` from the fault (spec/41_hall_commutation.md R126). -/
theorem test_hallArm :
    nextOf (exec .hallArm faulted) = some { faulted with
      status := { faulted.status with hallEn := true, faultStall := false }
      hall := { faulted.hall with stallCnt := 0, faultCode := 0 }
      resp := some ⟨0, 0⟩ } := by decide

/-- The example of spec/41_hall_commutation.md R127. -/
theorem test_hallStop :
    (nextOf (exec .hallStop { driving with events := [] })).map (fun t => (t.out, t.hall.step, t.status.hallEn, t.events)) =
      some (Bank.off, 0, false, [.commit]) := by decide

/-- The source's example, rows b4 and b5 of 95 section 1.1, and the floor of a negative half (95 section 2.2.2). -/
theorem test_pidUpdate :
    (let s := { State.reset with host := { State.reset.host with pidKp := 0x10000, pidKi := 0x8000, pidTarget := 10 } }
     (nextOf (exec (.pidUpdate 7) s)).map (fun t => t.pid) = some ⟨7, 3, 3, 3, 4⟩ ∧
     (nextOf (exec (.pidUpdate 7) { s with pid := ⟨7, 3, 3, 3, 4⟩ })).map (fun t => t.pid) = some ⟨7, 3, 3, 6, 6⟩) ∧
    (pidStep { State.reset.host with pidKp := 0xFFFF8000 } ⟨3, 0xFFFFFFFD, 0xFFFFFFFD, 0xFFFFFFFD, 1⟩ (-3)).out = -2 := by
  decide

/-- Saturation of the integral, inverted limits (95 section 2.2.2). -/
theorem test_pidUpdate_limits :
    (let r := pidStep { State.reset.host with pidKi := 0x10000, pidTarget := 0x7FFFFFFF }
        ⟨0x80000000, 0x7FFFFFFF, 0x7FFFFFFF, 0x7FFFFFFF, 0x7FFFFFFF⟩ (-2147483648)
     (r.i0, r.i1, r.acc, r.out) = (4294967294, 2147483647, 140737488289792, 2147483647)) ∧
    (pidStep { State.reset.host with pidKp := 0x10000, pidOutMin := 100, pidOutMax := 50, pidTarget := 10 }
      State.reset.pid 7).out = 50 := by decide

/-- Row b6 of 95 section 1.1. -/
theorem test_pidReset :
    (nextOf (exec .pidReset { State.reset with pid := ⟨7, 3, 3, 6, 6⟩ })).map (fun t => t.pid) = some ⟨7, 3, 0, 0, 6⟩ := by
  decide

/-- Rows of 96 section 2.3.2: the rescale in sector 1, and the middle of the OVM_MODE_2 line. -/
theorem test_svmCompute :
    (let r := svmStep Config.sample 22000 (-22000)
     (r.vref, r.regime, r.sector, r.raw, r.dwell, r.duties) =
       (31112, .ovmMode1, .s1, ⟨9027, 24662⟩, ⟨8780, 23988⟩, ⟨65536, 47976, 0⟩)) ∧
    (let r := svmStep Config.sample 100 (-32000)
     (r.vref, r.regime, r.gam, r.sector, r.axes, r.dwell, r.duties) =
       (32000, .ovmMode2, 8500, .s2, ⟨36244, 18220, 18024⟩, ⟨16209, 16559⟩, ⟨33118, 65536, 0⟩)) := by decide

/-- The compare counts and the registers (96 section 2.3.2), and the ERROR row. -/
theorem test_svmCompute_results :
    (let t := svmCompute Config.sample 10000 0 modulating
     (t.out, t.resp, readReg .svmState t) = (⟨5481, 2918, 2918, 0⟩, some ⟨0, 6⟩, 0x27100006)) ∧
    (let t := svmCompute Config.sample 0x8000 0x8000 modulating
     (t.out, t.resp, readReg .svmState t, t.svm.ovmErrCnt, readReg .status t) =
       (⟨4200, 4200, 4200, 0⟩, some ⟨0, 0x1A⟩, 0xB504001A, 1, 8)) := by decide

/-- Write effects (95 section 2.4.2): write-one-to-clear, and the forced-OFF of a `MODE` write of the value held. -/
theorem test_wrReg :
    (nextOf (exec (.wrReg 0x10 0x1C) { armed with status := ⟨true, false, true, true, true, false, false⟩ })).map
      (readReg .status) = some 1 ∧
    (nextOf (exec (.wrReg 0x00 2) { modulating with out := ⟨5481, 2918, 2918, 0⟩, stg := ⟨5481, 2918, 2918, 0⟩ })).map
      (fun t => (t.out, t.stg, t.host.mode, t.events)) = some (Bank.off, Bank.off, 2, [.commit]) := by decide

/-- Reads (95 section 2.4.2): the staged bank after `HALL.COMM 3`; the pins. -/
theorem test_rdReg :
    (nextOf (exec (.rdReg 0x19) driving)).bind State.resp = some ⟨0, 0x834⟩ ∧
    (nextOf (exec (.rdReg 0x1B) driving)).bind State.resp = some ⟨0, 4⟩ ∧
    (nextOf (exec .rdHall { armed with hallIn := 5 })).bind State.resp = some ⟨0, 5⟩ := by decide

/-- Two serial orders of one word: the opcode byte goes first (spec/20_memory.md R82). -/
theorem test_serial : serialBytes 0x2055F0AA10 = [0x20, 0x55, 0xF0, 0xAA, 0x10] ∧ wordOfSerial [0x20, 0x55] = none := by
  decide

/-- `isqrt` at the ends of its range (spec/43_svm_ovm.md R161, R163). -/
theorem test_isqrt : isqrt 0 = 0 ∧ isqrt 2147483648 = 46340 ∧ isqrt 2147395600 = 46340 ∧ isqrt 2147395599 = 46339 := by
  decide

/-! ### Witnesses: for each statement with hypotheses, data that meet them all, at the boundaries of its clauses -/

/-- One operation offered to a state, nothing after it. -/
def offered (w : OpWord) (s : State) : State := { s with stream := [⟨w, 0⟩] }

theorem test_witness_EncodeOfDecode : decode 0x0100000007 = .ok (.hallComm 7) := by rfl

theorem test_witness_DecodeFollowsOpcodeMap :
    decode 0xC000000000 = .ok (.rdReg 0) ∧
    (∃ r ∈ opcodeRows, r.selects 0xFF00000000 = true) ∧ (∃ r ∈ opcodeRows, r.selects 0xBFFFFFFFFF = true) := by
  refine ⟨rfl, ?_, ?_⟩ <;> decide

theorem test_witness_UnmappedRegistersRefused :
    ∀ n ∈ ([0x06, 0x07, 0x1F, 0x25, 0x26, 0x27, 0x2D, 0x3F] : List RegNum), regOfNumber n = none := by decide

theorem test_witness_StepRunsDecoded :
    (offered 0x0200000000 armed).stream = [⟨0x0200000000, 0⟩] ∧ decode 0x0200000000 = .ok .hallTick := ⟨rfl, rfl⟩

theorem test_witness_ReservedOpcodeRefused :
    (offered 0x0500000000 armed).stream = [⟨0x0500000000, 0⟩] ∧
    (0x05 = BitVec.toNat 0x0500000000#40 / 2 ^ 32 ∧ 0x0F = BitVec.toNat 0x0FFFFFFFFF#40 / 2 ^ 32) ∧
    (0x12 = BitVec.toNat 0x1200000000#40 / 2 ^ 32 ∧ 0x1F = BitVec.toNat 0x1F00000000#40 / 2 ^ 32) ∧
    (0x21 = BitVec.toNat 0x2100000000#40 / 2 ^ 32 ∧ 0x7F = BitVec.toNat 0x7F12345678#40 / 2 ^ 32) := by
  refine ⟨rfl, ?_⟩; decide

theorem test_witness_MustBeZeroRefused :
    (offered 0x0000000001 armed).stream = [⟨0x0000000001, 0⟩] ∧
    (0x00 = BitVec.toNat 0x0000000001#40 / 2 ^ 32 ∧ 1 = BitVec.toNat 0x0000000001#40 % 2 ^ 32) ∧
    (0x11 = BitVec.toNat 0x1100000001#40 / 2 ^ 32 ∧ 1 = BitVec.toNat 0x1100000001#40 % 2 ^ 32) ∧
    (0x01 = BitVec.toNat 0x0100000008#40 / 2 ^ 32 ∧ 8 = BitVec.toNat 0x0100000008#40 % 2 ^ 32) ∧
    (0xC0 = BitVec.toNat 0xC000000001#40 / 2 ^ 32 ∧ 0xFF = BitVec.toNat 0xFF00000001#40 / 2 ^ 32) := by
  refine ⟨rfl, ?_⟩; decide

theorem test_witness_IdleStepHolds : State.reset.stream = [] := rfl

theorem test_witness_EveryWordIsAnswered : (offered 0x7F00000000 faulted).stream = [⟨0x7F00000000, 0⟩] := rfl

theorem test_witness_RefusalIsPrecise :
    ∃ t r, (offered 0x8000000003 armed).stream = [⟨0x8000000003, 0⟩] ∧
      step (offered 0x8000000003 armed) = .next t ∧ t.resp = some r ∧ r.err ≠ 0 :=
  ⟨raiseOpError 0x80 .illegalOperand { armed with hallIn := 0 }, ⟨2, 0⟩, rfl, rfl, rfl, by decide⟩

theorem test_witness_ValidCodeCommutates :
    armed.status.hallEn = true ∧ ∀ code ∈ ([1, 6] : List (BitVec 3)), code ≠ 0 ∧ code ≠ 7 := by decide

theorem test_witness_InvalidCodeRecorded : armed.status.hallEn = true ∧ ((0 : BitVec 3) = 0 ∨ (0 : BitVec 3) = 7) ∧
    ((7 : BitVec 3) = 0 ∨ (7 : BitVec 3) = 7) := by decide

theorem test_witness_MaskedWhileDisarmed : State.reset.status.hallEn = false ∧ faulted.status.hallEn = false := by decide

theorem test_witness_TwelveDefaultCases : armed.status.hallEn = true ∧ armed.host.dir = 0 ∧
    ({ armed with host.dir := 1 } : State).status.hallEn = true ∧ ({ armed with host.dir := 1 } : State).host.dir = 1 := by
  decide

/-- Both clauses, with the count at its threshold and at the saturated end. -/
theorem test_witness_StallTickRule :
    faulted.status.hallEn = false ∧ armed.status.hallEn = true ∧ armed.host.stallThr.toNat = 2 ∧
    min (armed.hall.stallCnt.toNat + 1) 65535 ≤ armed.host.stallThr.toNat ∧
    (let s := { armed with hall.stallCnt := 2 }
     s.status.hallEn = true ∧ s.host.stallThr.toNat < min (s.hall.stallCnt.toNat + 1) 65535) ∧
    (let s := { armed with hall.stallCnt := 65535, host.stallThr := 65535 }
     s.status.hallEn = true ∧ min (s.hall.stallCnt.toNat + 1) 65535 ≤ s.host.stallThr.toNat) := by decide

/-- The thresholds 2, 65534 and 65535. -/
theorem test_witness_StallFaultAfterThreshold :
    (armed.status.hallEn = true ∧ armed.status.faultStall = false ∧ armed.hall.stallCnt = 0 ∧
      armed.host.stallThr.toNat = 2) ∧
    (let s := { armed with host.stallThr := 65534 }
     s.status.hallEn = true ∧ s.status.faultStall = false ∧ s.hall.stallCnt = 0 ∧ s.host.stallThr.toNat < 65535) ∧
    (let s := { armed with host.stallThr := 65535 }
     s.status.hallEn = true ∧ s.status.faultStall = false ∧ s.hall.stallCnt = 0 ∧ s.host.stallThr.toNat = 65535) :=
  ⟨⟨rfl, rfl, rfl, rfl⟩, ⟨rfl, rfl, rfl, show 65534 < 65535 from by decide⟩, ⟨rfl, rfl, rfl, rfl⟩⟩

theorem test_witness_ArmRule :
    (faulted.host.mode = 1 ∧ State.reset.host.mode ≠ 1 ∧ modulating.host.mode ≠ 1) ∧
    ∃ t, exec .hallStop faulted = .next t ∧ faulted.status.faultStall = true ∧ Instr.hallStop ≠ .hallArm :=
  ⟨by decide, _, rfl, rfl, by decide⟩

theorem test_witness_PidResetRule :
    ∃ t, exec .hallStop faulted = .next t ∧ Instr.hallStop ≠ .pidReset ∧ ∀ m, Instr.hallStop ≠ .pidUpdate m :=
  ⟨_, rfl, by decide, fun _ h => by cases h⟩

theorem test_witness_StatusWriteOneToClear :
    ∃ t, exec .hallArm faulted = .next t ∧ faulted.status.faultStall = true ∧ t.status.faultStall = false :=
  ⟨_, rfl, rfl, rfl⟩

/-- A transition of each kind: arming, the fault, leaving it, stopping. -/
theorem test_witness_ConditionTransitions :
    (∃ t, exec .hallArm faulted = .next t ∧ t.status.hallEn = true ∧ t.status.faultStall = false) ∧
    (∃ t, exec .hallTick { armed with hall.stallCnt := 2 } = .next t ∧ t.status.faultStall = true) ∧
    (∃ t, exec .hallStop armed = .next t ∧ armed.status.hallEn = true ∧ t.status.hallEn = false) :=
  ⟨⟨_, rfl, rfl, rfl⟩, ⟨_, rfl, rfl⟩, ⟨_, rfl, rfl, rfl⟩⟩

theorem test_witness_PidUpdateRule_routed :
    ({ armed with host.pidRoute := 1 } : State).host.pidRoute = 1 ∧ armed.host.pidRoute ≠ 1 := by decide

theorem test_witness_PidMemoryIsTwoRegisters :
    armed.host = driving.host ∧ armed.pid.integral = driving.pid.integral ∧ armed.pid.prevError = driving.pid.prevError ∧
      armed ≠ driving := by decide

/-- A well-formed record, and a `vref` at each bound of the regimes. -/
theorem test_witness_RegimeIntervals :
    Config.WF Config.sample ∧ classify Config.sample 29716 = .linear ∧ classify Config.sample 29717 = .ovmMode1 ∧
    classify Config.sample 31185 = .ovmMode1 ∧ classify Config.sample 31186 = .ovmMode2 ∧
    classify Config.sample 32767 = .ovmMode2 ∧ classify Config.sample 32768 = .error := by decide

theorem test_witness_TableIndicesInside :
    Config.WF Config.sample ∧ (Config.sample.vrefM1Start ≤ 29717 ∧ 29717 < Config.sample.vrefM2End) ∧
    (Config.sample.vrefM1Start ≤ 32767 ∧ 32767 < Config.sample.vrefM2End) := by decide

theorem test_witness_EdgeRescale :
    (let t : Dwell := ⟨32768, 0⟩; 0 ≤ t.t1 ∧ 0 ≤ t.t2 ∧ t.t1 + t.t2 ≤ 32768) ∧
    (let t : Dwell := ⟨32768, 1⟩; 0 ≤ t.t1 ∧ 0 ≤ t.t2 ∧ 32768 < t.t1 + t.t2) := by decide

theorem test_witness_OvmMode2OnEdge :
    (let t : Dwell := ⟨0, 0⟩; 0 ≤ t.t1 ∧ 0 ≤ t.t2 ∧ t.t1 + t.t2 = 0) ∧
    (let t : Dwell := ⟨0, 1⟩; 0 ≤ t.t1 ∧ 0 ≤ t.t2 ∧ 0 < t.t1 + t.t2) := by decide

theorem test_witness_SvmRanges : Config.WF Config.sample := sample_wf

/-- Each regime of `SvmPipeline` and both over-modulation clauses of `SvmRanges`. -/
theorem test_witness_SvmPipeline :
    (svmStep Config.sample 10000 0).regime = .linear ∧ (svmStep Config.sample 22000 (-22000)).regime = .ovmMode1 ∧
    (svmStep Config.sample 100 (-32000)).regime = .ovmMode2 ∧ (svmStep Config.sample (-32768) 0).regime = .error ∧
    0 < (svmStep Config.sample 100 (-32000)).raw.t1 + (svmStep Config.sample 100 (-32000)).raw.t2 := by decide

/-- A command that reaches each sector. -/
theorem test_witness_SvmPipeline_sectors :
    (svmStep Config.sample 22000 (-22000)).sector = .s1 ∧ (svmStep Config.sample 0 0).sector = .s2 ∧
    (svmStep Config.sample (-20000) (-20000)).sector = .s3 ∧ (svmStep Config.sample (-31900) 3000).sector = .s4 ∧
    (svmStep Config.sample 0 10000).sector = .s5 ∧ (svmStep Config.sample 10000 0).sector = .s6 := by decide

theorem test_witness_LineToLineLinear :
    ∀ v ∈ ([(10000, 0), (0, 10000), (-10000, 5000), (20000, 20000)] : List (Int × Int)),
      let r := svmStep Config.sample (BitVec.ofInt 16 v.1).toInt (BitVec.ofInt 16 v.2).toInt
      r.regime = .linear ∧ r.raw.t1 + r.raw.t2 ≤ 32768 := by decide

theorem test_witness_SvmResultsWritten : modulating.host.mode = 2 := rfl

theorem test_witness_SvmWrongModeRefused : State.reset.host.mode ≠ 2 ∧ armed.host.mode ≠ 2 := by decide

theorem test_witness_ErrorRegimeIsCenter :
    Config.WF Config.sample ∧ modulating.host.mode = 2 ∧
    classify Config.sample (magnitude (BitVec.toInt 0x8000#16) (BitVec.toInt 0x0000#16)) = .error := by decide

theorem test_witness_SvmIsPure :
    (let s := { modulating with svm.ovmErrCnt := 9, hallIn := 3 }
     modulating.host.mode = 2 ∧ s.host.mode = 2 ∧ modulating.host.pwmPeriod = s.host.pwmPeriod ∧ modulating ≠ s) := by decide

theorem test_witness_WriteThenRead :
    BitVec.toNat 1#32 < 2 ∧ BitVec.toNat 65535#32 < 65536 ∧ BitVec.toNat 0xFFFFFFFF#32 < 2 ^ 32 := by decide

theorem test_witness_ModeWriteRule :
    (BitVec.toNat 2#32 < 3 ∧ modulating.status.hallEn = false) ∧ (BitVec.toNat 2#32 < 3 ∧ armed.status.hallEn = true) ∧
    3 ≤ BitVec.toNat 3#32 := by decide

theorem test_witness_RefusedWrites : 2 ≤ BitVec.toNat 2#32 ∧ 65536 ≤ BitVec.toNat 65536#32 := by decide

theorem test_witness_SecondSpellingsComplete :
    BitVec.toNat 2#32 < 3 ∧ modulating.status.hallEn = false ∧ BitVec.toNat 1#32 < 2 ∧ BitVec.toNat 65535#32 < 65536 := by
  decide

/-- Armed with the count at the threshold, and offered the tick that faults. -/
def stalling : State := offered 0x0200000000 { armed with hall.stallCnt := 2 }

/-- That state has the invariants. -/
theorem stalling_inv : Inv stalling where
  armed := by decide
  banks := rfl
  stepCode := by decide
  stepZero := by decide
  sixStep := fun _ =>
    ⟨fun p _ hp _ => absurd (show Bank.off.duty p = 0 by cases p <;> rfl) hp,
     fun p _ hp _ => absurd hp (by cases p <;> decide), fun p _ => by cases p <;> rfl⟩
  gateOff := by decide
  faultCode := by decide
  faulted := by decide
  heldOff := by decide
  modeLegal := by decide
  stepLegal := by decide
  errLegal := by decide
  faultLegal := by decide
  svmLegal := by decide
  svmDuties := by decide

/-- A faulted state has the invariants. -/
theorem faulted_inv : Inv faulted where
  armed := by decide
  banks := rfl
  stepCode := by decide
  stepZero := by decide
  sixStep := fun _ => stalling_inv.sixStep rfl
  gateOff := by decide
  faultCode := by decide
  faulted := by decide
  heldOff := by decide
  modeLegal := by decide
  stepLegal := by decide
  errLegal := by decide
  faultLegal := by decide
  svmLegal := by decide
  svmDuties := by decide

theorem test_witness_StepKeepsInv :
    Inv stalling ∧ ∃ t, step stalling = .next t := ⟨stalling_inv, _, rfl⟩

/-- Both disjuncts: the threshold kept, and lowered to the count. -/
theorem test_witness_StallBoundKept :
    (let s := offered 0x0000000000 { armed with hall.stallCnt := 2 }
     StallBounded s ∧ ∃ t, step s = .next t ∧ s.host.stallThr ≤ t.host.stallThr) ∧
    (let s := offered 0x8200000001 { armed with hall.stallCnt := 1 }
     StallBounded s ∧ ∃ t, step s = .next t ∧ s.hall.stallCnt ≤ t.host.stallThr ∧
       ¬ s.host.stallThr ≤ t.host.stallThr) :=
  ⟨⟨fun _ => by decide, _, rfl, by decide⟩, ⟨fun _ => by decide, _, rfl, by decide, by decide⟩⟩

theorem test_witness_OutputsHaveOwners :
    ∃ t, exec .hallStop driving = .next t ∧ t.out ≠ driving.out := ⟨_, rfl, by decide⟩

theorem test_witness_CommitWithinPeriod :
    ∃ t, exec .hallStop driving = .next t ∧ t.events ≠ driving.events := ⟨_, rfl, by decide⟩

/-- The entry to the fault; then a faulted state with its outputs off, in six-step mode. -/
theorem test_witness_FaultedOutputsStayOff :
    (Inv stalling ∧ ∃ t, exec .hallTick stalling = .next t ∧ t.status.faultStall = true ∧
      stalling.status.faultStall = false) ∧
    (Inv faulted ∧ ∃ t, exec .nop faulted = .next t ∧ t.status.faultStall = true ∧ t.host.mode ≠ 2 ∧
      faulted.out = Bank.off) :=
  ⟨⟨stalling_inv, _, rfl, rfl, rfl⟩, ⟨faulted_inv, _, rfl, rfl, by decide, rfl⟩⟩

/-- A platform with every source pending and enabled but the PWM tick, and one modulating with that tick pending. -/
def platform : Platform := ⟨armed, ⟨true, true, false, true⟩, ⟨3, false, false, false, 0, 0, 0⟩, false⟩

theorem test_witness_FrontEnd :
    (∃ q, platformStep (.serve .hall) platform = some q) ∧
    (∃ q, platformStep (.serve .stallTick) platform = some q) ∧ (∃ q, platformStep (.serve .pidTick) platform = some q) ∧
    (∃ q, platformStep (.serve .pwmTick) ⟨modulating, ⟨false, false, true, false⟩, platform.pins, false⟩ = some q) ∧
    platformStep (.serve .pwmTick) platform = none :=
  ⟨⟨_, rfl⟩, ⟨_, rfl⟩, ⟨_, rfl⟩, ⟨_, rfl⟩, rfl⟩

theorem test_witness_MaskedLatchesAreClear :
    ∃ q, platformStep (.clock { platform.pins with hallIn := 2 }) platform = some q ∧ pending .hall q.latches = true :=
  ⟨_, rfl, rfl⟩

end Sys2Proof.Tests
end

section
/-! The step on an offered operation (spec/00_scope.md R8). -/

namespace Sys2Proof.Machine

/-- The branch of `step_cases` a decoded word takes, for callers that hold the offered operation and its decoding. -/
theorem step_eq_exec_of_decode {s : State} {op : Issue} {rest : List Issue} {i : Instr}
    (hstream : s.stream = op :: rest) (hdecode : decode op.word = .ok i) :
    step s = exec i { clearOutputs s with stream := rest, hallIn := op.hallIn } := by
  simp only [step, fetchOp_cons hstream, hdecode]

/-- Settles O7: the step runs in the advanced state, which is `clearOutputs` written out. -/
theorem stepRunsDecoded : Obligations.StepRunsDecoded := by
  intro s op rest i hstream hdecode
  exact step_eq_exec_of_decode hstream hdecode

end Sys2Proof.Machine
end

section
/-! What one operation can do, said once: the effect of each operation on the state, with the guard under which it has it. -/

namespace Sys2Proof.Machine

/-- Everything an operation can do.  `Effect i s t`: executed in `s`, the operation `i` can leave `t`.  The spellings of a
register write share one case by the operation they stand for. -/
inductive Effect : Instr → State → State → Prop
  /-- One of the checks of spec/60_exceptions.md R221 fails: the records of the error, and nothing else (R211). -/
  | refused {i : Instr} {s : State} (e : OpErr) : Effect i s (raiseOpError i.opcode e s)
  /-- A response and nothing else: `NOP`, a register read, a Hall operation while disarmed. -/
  | answered {i : Instr} {s : State} (v : Word) : Effect i s (respond v s)
  | recorded {s : State} {code : BitVec 3} (hen : s.status.hallEn = true) (hcode : code = 0 ∨ code = 7) :
      Effect (.hallComm code) s (invalidCode s)
  | commutated {s : State} {code : BitVec 3} (hen : s.status.hallEn = true) (h0 : code ≠ 0) (h7 : code ≠ 7) :
      Effect (.hallComm code) s (commutate machineCfg code (machineCfg.hallStepMap s.host.dir code) s)
  | counted {s : State} (hen : s.status.hallEn = true) (hthr : ¬ s.host.stallThr < satU16Inc s.hall.stallCnt) :
      Effect .hallTick s (respond 0 { s with hall.stallCnt := satU16Inc s.hall.stallCnt })
  | stalled {s : State} (hen : s.status.hallEn = true) (hthr : s.host.stallThr < satU16Inc s.hall.stallCnt) :
      Effect .hallTick s (respond 0 (enterFault { s with hall.stallCnt := satU16Inc s.hall.stallCnt }))
  | rearmed {s : State} (hmode : s.host.mode = 1) : Effect .hallArm s (respond 0 (rearm s))
  | stopped {s : State} :
      Effect .hallStop s (respond 0 { forceOff { s with status.hallEn := false } with
        hall := { s.hall with step := 0, hallLast := 0, stallCnt := 0 } })
  | regulated {s : State} {measured : Word} {r : PidStep} (hr : r = pidStep s.host s.pid (toS32 measured)) :
      Effect (.pidUpdate measured) s (respond (toU32 r.out) { s with
        pid := { measured := measured, error := toU32 r.e, prevError := toU32 r.e
                 integral := toU32 r.i1, out := toU32 r.out }
        status := satFlags r.i0 r.i1 r.raw r.out s.status
        host.pulse := routedPulse s.host r.out })
  | pidCleared {s : State} : Effect .pidReset s (respond 0 { s with pid.integral := 0, pid.prevError := 0 })
  | modulated {s : State} {alpha beta : BitVec 16} (hmode : s.host.mode = 2) :
      Effect (.svmCompute alpha beta) s (svmFinish (svmStep machineCfg (toS16 alpha) (toS16 beta)) s)
  | modeWritten {i : Instr} {s : State} {val : Word} (hi : i.core = .wrReg (regNumber .mode) val)
      (hval : regValueLegal .mode val = true) (hdis : s.status.hallEn = false) :
      Effect i s (respond 0 (forceOff { s with host.mode := val.setWidth 2 }))
  | written {i : Instr} {s : State} {r : Reg} {val : Word} (hi : i.core = .wrReg (regNumber r) val) (hr : r ≠ .mode)
      (hw : regWritable r = true) (hval : regValueLegal r val = true) :
      Effect i s (respond 0 (storeReg r val s))

/-- The number of the register that a number names is that number. -/
theorem regNumber_of_regOfNumber {n : RegNum} {r : Reg} (h : regOfNumber n = some r) : regNumber r = n := by
  simpa using List.find?_some h

theorem acceptWrite_mode (val : Word) (s : State) :
    acceptWrite .mode val s = respond 0 (forceOff { s with host.mode := val.setWidth 2 }) := by
  rw [acceptWrite, if_pos rfl, storeReg]

theorem acceptWrite_plain {r : Reg} (hr : r ≠ .mode) (val : Word) (s : State) :
    acceptWrite r val s = respond 0 (storeReg r val s) := by
  rw [acceptWrite, if_neg hr]

/-- A checked register write, from whichever spelling. -/
theorem effect_writeReg {i : Instr} {r : Reg} {val : Word} (hi : i.core = .wrReg (regNumber r) val) (s : State) :
    Effect i s (writeReg i.opcode r val s) := by
  obtain ⟨hw, hval, hguard, heq⟩ | ⟨-, heq⟩ | ⟨-, -, heq⟩ | ⟨-, -, -, heq⟩ := writeReg_cases i.opcode r val s <;> rw [heq]
  · by_cases hr : r = .mode
    · subst hr
      rw [acceptWrite_mode]
      exact .modeWritten hi hval (by simpa using hguard)
    · rw [acceptWrite_plain hr]
      exact .written hi hr hw hval
  · exact .refused _
  · exact .refused _
  · exact .refused _

theorem effect_execHallComm (code : BitVec 3) (s : State) : Effect (.hallComm code) s (hallComm machineCfg code s) := by
  cases hen : s.status.hallEn with
  | false => rw [hallComm_disarmed _ _ hen]; exact .answered _
  | true =>
    by_cases hcode : code = 0 ∨ code = 7
    · rw [hallComm_invalid _ hen hcode]; exact .recorded hen hcode
    · obtain ⟨h0, h7⟩ := not_or.1 hcode
      rw [hallComm_valid _ hen h0 h7]; exact .commutated hen h0 h7

theorem effect_execHallTick (s : State) : ∃ t, execHallTick s = .next t ∧ Effect .hallTick s t := by
  cases hen : s.status.hallEn with
  | false => exact ⟨_, execHallTick_disarmed hen, .answered _⟩
  | true =>
    by_cases hthr : s.host.stallThr < satU16Inc s.hall.stallCnt
    · exact ⟨_, execHallTick_fault hen hthr, .stalled hen hthr⟩
    · exact ⟨_, execHallTick_count hen hthr, .counted hen hthr⟩

theorem effect_execHallArm (s : State) : ∃ t, execHallArm s = .next t ∧ Effect .hallArm s t := by
  by_cases hmode : s.host.mode = 1
  · exact ⟨_, execHallArm_ok hmode, .rearmed hmode⟩
  · exact ⟨_, execHallArm_wrongMode hmode, .refused _⟩

theorem effect_svmCompute (alpha beta : BitVec 16) (s : State) :
    Effect (.svmCompute alpha beta) s (svmCompute machineCfg alpha beta s) := by
  by_cases hmode : s.host.mode = 2
  · rw [svmCompute_ok _ _ _ hmode]; exact .modulated hmode
  · rw [svmCompute_wrongMode _ _ _ hmode]; exact .refused _

theorem effect_execWrReg (n : RegNum) (val : Word) (s : State) :
    ∃ t, execWrReg n val s = .next t ∧ Effect (.wrReg n val) s t := by
  cases hn : regOfNumber n with
  | none => exact ⟨_, execWrReg_unmapped hn val s, .refused _⟩
  | some r =>
    exact ⟨_, execWrReg_mapped hn val s, effect_writeReg (by rw [regNumber_of_regOfNumber hn]; rfl) s⟩

theorem effect_execRdReg (n : RegNum) (s : State) : ∃ t, execRdReg n s = .next t ∧ Effect (.rdReg n) s t := by
  cases hn : regOfNumber n with
  | none => exact ⟨_, execRdReg_unmapped hn s, .refused _⟩
  | some r => exact ⟨_, execRdReg_mapped hn s, .answered _⟩

/-- Every operation in every state gives a next state, by one of the cases of `Effect`. -/
theorem exec_effect (i : Instr) (s : State) : ∃ t, exec i s = .next t ∧ Effect i s t := by
  cases i with
  | nop => exact ⟨_, rfl, .answered 0⟩
  | hallComm code => exact ⟨_, rfl, effect_execHallComm code s⟩
  | hallTick => exact effect_execHallTick s
  | hallArm => exact effect_execHallArm s
  | hallStop => exact ⟨_, rfl, .stopped⟩
  | pidUpdate measured => exact ⟨_, rfl, .regulated rfl⟩
  | pidReset => exact ⟨_, rfl, .pidCleared⟩
  | svmCompute alpha beta => exact ⟨_, rfl, effect_svmCompute alpha beta s⟩
  | wrReg n val => exact effect_execWrReg n val s
  | rdReg n => exact effect_execRdReg n s
  | cfgMode | cfgDir | cfgStallthr | cfgPeriod | setPulse | cfgRoute | pidTarget | pidKp | pidKi | pidKd | clrFlags =>
    exact ⟨_, rfl, effect_writeReg rfl s⟩
  | rdHall => exact ⟨_, rfl, .answered _⟩

/-- The next state of an operation, by the cases of `Effect`. -/
theorem effect_of_exec {i : Instr} {s t : State} (h : exec i s = .next t) : Effect i s t := by
  obtain ⟨t', ht', heffect⟩ := exec_effect i s
  cases ht'.symm.trans h
  exact heffect

/-- The state in which an offered operation executes: taken from the stream, its Hall-pin level on the pins. -/
def advance (op : Issue) (rest : List Issue) (s : State) : State :=
  { clearOutputs s with stream := rest, hallIn := op.hallIn }

/-- What a step can do: hold the registers, execute an operation, or raise the error of a word that is none. -/
theorem step_effect {s t : State} (h : step s = .next t) :
    t = clearOutputs s ∨ ∃ op rest, (∃ i, Effect i (advance op rest s) t) ∨
      ∃ opc e, t = raiseOpError opc e (advance op rest s) := by
  obtain ⟨-, heq⟩ | ⟨op, rest, i, -, -, heq⟩ | ⟨op, rest, e, -, -, heq⟩ := step_cases s
  · cases heq.symm.trans h; exact .inl rfl
  · exact .inr ⟨op, rest, .inl ⟨i, effect_of_exec (heq.symm.trans h)⟩⟩
  · cases heq.symm.trans h; exact .inr ⟨op, rest, .inr ⟨_, _, rfl⟩⟩

end Sys2Proof.Machine
end

section
/-! The register file: what a store leaves alone, what it reads back, and the numbers with no register. -/

namespace Sys2Proof.Machine

/-! ### One register stored -/

@[simp] theorem storeReg_events (r : Reg) (val : Word) (s : State) : (storeReg r val s).events = s.events := by
  cases r <;> rfl

@[simp] theorem storeReg_stream (r : Reg) (val : Word) (s : State) : (storeReg r val s).stream = s.stream := by
  cases r <;> rfl

@[simp] theorem readReg_respond (r : Reg) (v : Word) (s : State) : readReg r (respond v s) = readReg r s := by
  cases r <;> rfl

/-- A store disturbs no other register: the read of `r'` is of a field that the store of `r` does not write. -/
theorem readReg_storeReg_ne {r r' : Reg} (hne : r' ≠ r) (val : Word) (s : State) :
    readReg r' (storeReg r val s) = readReg r' s := by
  cases r with
  | mode | dir | stallThr | pwmPeriod | pulse | pidRoute | pidTarget | pidKp | pidKi | pidKd
  | pidOutMin | pidOutMax | pidIntMin | pidIntMax | status | invHallCnt | ovmErrCnt =>
    cases r' <;> first | exact absurd rfl hne | rfl
  | _ => rfl

/-- A narrow field gives back a value that fits it. -/
theorem setWidth_setWidth_of_fits {n : Nat} {val : Word} (h : val.toNat < 2 ^ n) :
    (val.setWidth n).setWidth 32 = val := by
  apply BitVec.eq_of_toNat_eq
  rw [BitVec.toNat_setWidth, BitVec.toNat_setWidth, Nat.mod_eq_of_lt h, Nat.mod_eq_of_lt val.isLt]

/-- The plainly written registers hold the whole value (spec/44_register_access.md R194 to R201, R205). -/
theorem readReg_storeReg_same {r : Reg} {val : Word} (hr : regAccess r = .rw)
    (hfits : ∀ n ∈ regUnsignedWidth r, val.toNat < 2 ^ n) (s : State) : readReg r (storeReg r val s) = val := by
  cases r with
  | dir | stallThr | pwmPeriod | pulse | pidRoute | invHallCnt | ovmErrCnt =>
    exact setWidth_setWidth_of_fits (hfits _ rfl)
  | pidTarget | pidKp | pidKi | pidKd | pidOutMin | pidOutMax | pidIntMin | pidIntMax => rfl
  | _ => cases hr

theorem regWritable_of_rw {r : Reg} (hr : regAccess r = .rw) : regWritable r = true := by simp [regWritable, hr]

theorem ne_mode_of_rw {r : Reg} (hr : regAccess r = .rw) : r ≠ .mode := by rintro rfl; cases hr

/-- The value checks of a register other than `MODE` are its width. -/
theorem regValueLegal_of_fits {r : Reg} {val : Word} (hr : r ≠ .mode)
    (hfits : ∀ n ∈ regUnsignedWidth r, val.toNat < 2 ^ n) : regValueLegal r val = true := by
  have hmode : (r == .mode) = false := by simpa using hr
  cases hn : regUnsignedWidth r with
  | none => simp [regValueLegal, hn, hmode]
  | some n => simpa [regValueLegal, hn, hmode] using hfits n hn

/-- A write of a plainly written register with a value that fits is accepted in every state. -/
theorem exec_wrReg_plain {r : Reg} {val : Word} (hr : regAccess r = .rw)
    (hfits : ∀ n ∈ regUnsignedWidth r, val.toNat < 2 ^ n) (s : State) :
    exec (.wrReg (regNumber r) val) s = .next (respond 0 (storeReg r val s)) := by
  have hmode := ne_mode_of_rw hr
  rw [← acceptWrite_plain hmode]
  have hexec : exec (.wrReg (regNumber r) val) s = .next (writeReg (wrOpcode (regNumber r)) r val s) :=
    execWrReg_mapped (regOfNumber_regNumber r) val s
  rw [hexec, writeReg, if_neg (by simp [regWritable_of_rw hr]), if_neg (by simp [regValueLegal_of_fits hmode hfits]),
    if_neg (fun h => hmode h.1)]

/-- Settles O41: the listed registers are plainly written ones and each bound is that of the register's width. -/
theorem writeThenRead : Obligations.WriteThenRead := by
  unfold Obligations.WriteThenRead
  intro row hrow s val hval
  obtain ⟨hr, hbound⟩ : regAccess row.1 = .rw ∧ ∀ n ∈ regUnsignedWidth row.1, row.2 ≤ 2 ^ n := by
    clear hval; revert row; decide
  have hfits : ∀ n ∈ regUnsignedWidth row.1, val.toNat < 2 ^ n := fun n hn => lt_of_lt_of_le hval (hbound n hn)
  refine ⟨_, exec_wrReg_plain hr hfits s, ?_, fun r hne => ?_, rfl, ?_, ?_⟩
  · rw [readReg_respond, readReg_storeReg_same hr hfits]
  · rw [readReg_respond, readReg_storeReg_ne hne]
  · simp
  · simp

/-! ### Numbers with no register -/

/-- The gaps of the register map (spec/10_state.md R65): the 64 numbers, one after another. -/
theorem regOfNumber_eq_none_iff (n : RegNum) :
    n.toNat ∈ [0x06, 0x07, 0x1F, 0x25, 0x26, 0x27] ∨ 0x2D ≤ n.toNat ↔ regOfNumber n = none := by
  revert n; decide

/-- The raised error is its records and nothing else (spec/60_exceptions.md R211). -/
theorem raiseOpError_opErrorOnly (opc : Opcode) (e : OpErr) (s : State) :
    OpErrorOnly opc (opErrCode e) s (raiseOpError opc e s) := rfl

/-- Settles O6: by the gaps of the map and the unmapped cases of the two register operations. -/
theorem unmappedRegistersRefused : Obligations.UnmappedRegistersRefused := by
  intro n
  refine ⟨regOfNumber_eq_none_iff n, fun hn val s => ⟨?_, ?_⟩⟩
  · exact ⟨_, execRdReg_unmapped hn s, raiseOpError_opErrorOnly _ .badRegister s⟩
  · exact ⟨_, execWrReg_unmapped hn val s, raiseOpError_opErrorOnly _ .badRegister s⟩

/-! ### The disarmed engine -/

theorem exec_hallComm_disarmed (code : BitVec 3) {s : State} (h : s.status.hallEn = false) :
    exec (.hallComm code) s = .next (respond (s.hall.step.setWidth 32) s) :=
  congrArg Host.Outcome.next (hallComm_disarmed machineCfg code h)

/-- Settles O16: while disarmed each of the two answers and does nothing else. -/
theorem maskedWhileDisarmed : Obligations.MaskedWhileDisarmed :=
  fun _ hdis => ⟨fun code => exec_hallComm_disarmed code hdis, execHallTick_disarmed hdis⟩

end Sys2Proof.Machine
end

section
/-! The ranges of the modulator that the invariants and the commits rest on (spec/43_svm_ovm.md R161): the magnitude, the
dwell times, the duties, the compare counts. -/

namespace Sys2Proof.Machine

/-- Storing an integer that fits a field loses nothing. -/
theorem toNat_ofInt_of_fits {n : Nat} {x : Int} (h0 : 0 ≤ x) (h1 : x < 2 ^ n) : ((BitVec.ofInt n x).toNat : Int) = x := by
  rw [BitVec.toNat_ofInt]
  norm_cast at h1 ⊢
  rw [Int.emod_eq_of_lt h0 h1, Int.toNat_of_nonneg h0]

theorem toS16_sq_le (h : BitVec 16) : 0 ≤ toS16 h * toS16 h ∧ toS16 h * toS16 h ≤ 1073741824 := by
  obtain ⟨hlo, hhi⟩ := toS16_mem h
  constructor <;> nlinarith

/-- The largest magnitude of a command (R161): both components at -32768. -/
theorem magnitude_mem (alpha beta : BitVec 16) :
    0 ≤ magnitude (toS16 alpha) (toS16 beta) ∧ magnitude (toS16 alpha) (toS16 beta) ≤ 46340 := by
  obtain ⟨ha0, ha⟩ := toS16_sq_le alpha
  obtain ⟨hb0, hb⟩ := toS16_sq_le beta
  unfold magnitude
  generalize hn : (toS16 alpha * toS16 alpha + toS16 beta * toS16 beta).toNat = n
  have hle : n ≤ 2147483648 := by omega
  obtain ⟨hroot, -⟩ := isqrt_spec n
  have : isqrt n ≤ 46340 := by nlinarith
  omega

/-! ### Dwell times -/

/-- Two dwell times that fit one period. -/
structure Dwell.InPeriod (t : Dwell) : Prop where
  t1_nonneg : 0 ≤ t.t1
  t2_nonneg : 0 ≤ t.t2
  sum_le : t.t1 + t.t2 ≤ 32768

theorem zero_inPeriod : Dwell.InPeriod ⟨0, 0⟩ := ⟨le_rfl, le_rfl, by decide⟩

/-- The sector tree picks the formula in which both times are non-negative (R169, R171). -/
theorem rawDwell_nonneg (ac bc : Int) :
    0 ≤ (rawDwell (sectorOf (project ac bc)) (project ac bc)).t1 ∧
    0 ≤ (rawDwell (sectorOf (project ac bc)) (project ac bc)).t2 := by
  have hsum : (project ac bc).x = (project ac bc).y + (project ac bc).z := by
    simp only [project_x, project_y, project_z]; ring
  generalize project ac bc = v at hsum
  unfold sectorOf
  split_ifs <;> simp only [rawDwell] <;> omega

theorem rescale_of_le {t : Dwell} (h : t.t1 + t.t2 ≤ 32768) : rescale t = t := if_neg (not_lt.2 h)

theorem rescale_of_gt {t : Dwell} (h : 32768 < t.t1 + t.t2) :
    rescale t = ⟨tdiv (t.t1 * 32768) (t.t1 + t.t2), 32768 - tdiv (t.t1 * 32768) (t.t1 + t.t2)⟩ := if_pos h

theorem rescale_inPeriod {t : Dwell} (h1 : 0 ≤ t.t1) (h2 : 0 ≤ t.t2) : (rescale t).InPeriod := by
  rcases le_or_gt (t.t1 + t.t2) 32768 with hs | hs
  · rw [rescale_of_le hs]; exact ⟨h1, h2, hs⟩
  · rw [rescale_of_gt hs]
    have hsum : 0 < t.t1 + t.t2 := by omega
    have hq0 : 0 ≤ tdiv (t.t1 * 32768) (t.t1 + t.t2) := tdiv_nonneg (by omega) (by omega)
    obtain ⟨hq, -⟩ := tdiv_floor (a := t.t1 * 32768) (by omega) hsum
    have hq1 : tdiv (t.t1 * 32768) (t.t1 + t.t2) ≤ 32768 := by nlinarith
    exact ⟨hq0, sub_nonneg.2 hq1, (add_sub_cancel _ _).le⟩

theorem reshape_inPeriod (t : Dwell) (gam : Int) : (reshape t gam).InPeriod := by
  by_cases hsum : t.t1 + t.t2 = 0
  · rw [reshape_zero hsum]; exact zero_inPeriod
  · obtain ⟨ht1, ht2⟩ := reshape_nonzero hsum gam
    obtain ⟨-, hgm⟩ := effectiveGamma_mem gam
    have hline := tdiv_nonneg (a := max (edgeShare t - holdOffset (effectiveGamma gam)) 0 * 17157)
      (b := 17157 - effectiveGamma gam) (by positivity) (by omega)
    constructor <;> omega

theorem redistribute_inPeriod {t : Dwell} (r : Regime) (gam : Int) (h1 : 0 ≤ t.t1) (h2 : 0 ≤ t.t2) :
    (redistribute r t gam).InPeriod := by
  cases r with
  | linear | ovmMode1 => exact rescale_inPeriod h1 h2
  | ovmMode2 => exact reshape_inPeriod t gam
  | error => exact zero_inPeriod

theorem svmStep_dwell_inPeriod (c : Cfg) (alpha beta : Int) : (svmStep c alpha beta).dwell.InPeriod :=
  redistribute_inPeriod _ _ (rawDwell_nonneg _ _).1 (rawDwell_nonneg _ _).2

/-! ### Duties and compare counts -/

/-- A duty of the internal domain. -/
def DutyLegal (d : Int) : Prop := 0 ≤ d ∧ d ≤ 65536

structure Duties.Legal (d : Duties) : Prop where
  a : DutyLegal d.a
  b : DutyLegal d.b
  c : DutyLegal d.c

/-- Each duty is one of the three levels (R177, R178), and dwell times within a period keep the levels in range. -/
theorem assign_legal (sec : Sector) {t : Dwell} (h : t.InPeriod) : (assign sec (levels t)).Legal := by
  obtain ⟨h1, h2, hsum⟩ := h
  have hlo : DutyLegal (levels t).lo := by simp only [DutyLegal, levels, Config.one]; omega
  have hmid : DutyLegal (levels t).mid := by simp only [DutyLegal, levels, Config.one]; omega
  have hhi : DutyLegal (levels t).hi := by simp only [DutyLegal, levels, Config.one]; omega
  cases sec <;> constructor <;> assumption

theorem svmStep_duties_legal (c : Cfg) (alpha beta : Int) : (svmStep c alpha beta).duties.Legal :=
  assign_legal _ (svmStep_dwell_inPeriod c alpha beta)

theorem toNat_ofInt_duty_le {d : Int} (h : DutyLegal d) : (BitVec.ofInt 17 d).toNat ≤ 65536 := by
  obtain ⟨h0, h1⟩ := h
  have := toNat_ofInt_of_fits (n := 17) h0 (by omega)
  omega

/-- A compare count is within the period (R181). -/
theorem scaleDuty_mem {period : Nat} {d : Int} (h : DutyLegal d) :
    0 ≤ scaleDuty period d ∧ scaleDuty period d ≤ period := by
  obtain ⟨h0, h1⟩ := h
  have hprod : 0 ≤ (period : Int) * d := by positivity
  obtain ⟨hfloor, -⟩ := tdiv_floor (b := Config.dutyFull) hprod (by decide)
  refine ⟨tdiv_nonneg hprod (by decide), ?_⟩
  simp only [scaleDuty, Config.dutyFull] at hfloor ⊢
  nlinarith

theorem toNat_ofInt_scaleDuty_le (period : BitVec 16) {d : Int} (h : DutyLegal d) :
    (BitVec.ofInt 16 (scaleDuty period.toNat d)).toNat ≤ period.toNat := by
  have hperiod := period.isLt
  obtain ⟨h0, h1⟩ := scaleDuty_mem (period := period.toNat) h
  have := toNat_ofInt_of_fits (n := 16) h0 (by omega)
  omega

theorem scaledBank_duty_le (period : BitVec 16) {d : Duties} (h : d.Legal) (p : Phase) :
    ((scaledBank period d).duty p).toNat ≤ period.toNat := by
  cases p with
  | a => exact toNat_ofInt_scaleDuty_le period h.a
  | b => exact toNat_ofInt_scaleDuty_le period h.b
  | c => exact toNat_ofInt_scaleDuty_le period h.c

@[simp] theorem scaledBank_gate (period : BitVec 16) (d : Duties) : (scaledBank period d).gate = 0 := rfl

theorem sectorCode_ne_seven (sec : Sector) : sectorCode sec ≠ 7 := by cases sec <;> decide

end Sys2Proof.Machine
end

section
/-! The output banks of the three owners: OFF, the six-step pattern, the modulator's. -/

namespace Sys2Proof.Machine

@[simp] theorem Bank.off_duty (p : Phase) : Bank.off.duty p = 0 := by cases p <;> rfl

@[simp] theorem Bank.off_gateOn (p : Phase) : Bank.off.gateOn p = false := by cases p <;> rfl

@[simp] theorem Bank.off_gate : Bank.off.gate = 0 := rfl

theorem patternBank_duty (driven freewheel : Phase) (d : BitVec 16) (p : Phase) :
    (patternBank driven freewheel d).duty p = if driven = p then d else 0 := by cases p <;> rfl

theorem patternBank_gateOn (driven freewheel : Phase) (d : BitVec 16) (p : Phase) :
    (patternBank driven freewheel d).gateOn p = decide (freewheel = p) := by
  have hgate : (patternBank driven freewheel d).gate = gateBit freewheel := rfl
  cases freewheel <;> cases p <;> simp [Bank.gateOn, hgate, gateBit]

/-- Only the driven phase has a duty. -/
theorem driven_of_patternBank_duty {driven freewheel p : Phase} {d : BitVec 16}
    (h : (patternBank driven freewheel d).duty p ≠ 0) : driven = p := by
  rw [patternBank_duty] at h
  by_contra hne
  exact h (if_neg hne)

/-- Only the freewheel phase has its gate on. -/
theorem freewheel_of_patternBank_gateOn {driven freewheel p : Phase} {d : BitVec 16}
    (h : (patternBank driven freewheel d).gateOn p = true) : freewheel = p := by
  simpa [patternBank_gateOn] using h

theorem Bank.off_sixStep : Bank.off.SixStep where
  oneDriven p _ hp _ := absurd (Bank.off_duty p) hp
  oneGate p _ hp _ := by simp at hp
  apart p _ := Bank.off_gateOn p

theorem patternBank_sixStep {driven freewheel : Phase} (hne : driven ≠ freewheel) (d : BitVec 16) :
    (patternBank driven freewheel d).SixStep where
  oneDriven _ _ hp hq := (driven_of_patternBank_duty hp).symm.trans (driven_of_patternBank_duty hq)
  oneGate _ _ hp hq := (freewheel_of_patternBank_gateOn hp).symm.trans (freewheel_of_patternBank_gateOn hq)
  apart p hp := by
    obtain rfl := driven_of_patternBank_duty hp
    simpa [patternBank_gateOn] using hne.symm

theorem patternBank_liveDuty_le (driven freewheel : Phase) (h : HostRegs) (p : Phase) :
    ((patternBank driven freewheel (liveDuty h)).duty p).toNat ≤ h.pwmPeriod.toNat := by
  rw [patternBank_duty]
  split
  · rw [liveDuty_toNat]; exact min_le_right _ _
  · exact Nat.zero_le _

/-- The bank a step of the six-step sequence drives. -/
def stepBank (c : Cfg) (st : BitVec 3) (h : HostRegs) : Bank :=
  patternBank (c.stepPattern st).1 (c.stepPattern st).2 (liveDuty h)

/-! ### A commutation, field by field; what every commit leaves -/

section
variable (c : Cfg) (code st : BitVec 3) (s : State)
@[simp] theorem commutate_host : (commutate c code st s).host = s.host := rfl
@[simp] theorem commutate_status : (commutate c code st s).status = s.status := rfl
@[simp] theorem commutate_hall :
    (commutate c code st s).hall = { s.hall with stallCnt := 0, step := st, hallLast := code } := rfl
@[simp] theorem commutate_out : (commutate c code st s).out = stepBank c st s.host := rfl
@[simp] theorem commutate_stg : (commutate c code st s).stg = stepBank c st s.host := rfl
@[simp] theorem commutate_lastErr : (commutate c code st s).lastErr = s.lastErr := rfl
@[simp] theorem commutate_svm : (commutate c code st s).svm = s.svm := rfl
end

/-- Settles O53: the operations that emit an event are the two that drive the outputs and the three that force them OFF. -/
theorem commitWithinPeriod : Obligations.CommitWithinPeriod := by
  intro i s t hexec hev
  cases effect_of_exec hexec with
  | refused | answered | recorded | counted | rearmed | regulated | pidCleared => exact absurd rfl hev
  | written => simp at hev
  | commutated => exact ⟨rfl, patternBank_liveDuty_le _ _ s.host⟩
  | modulated => exact ⟨rfl, scaledBank_duty_le _ (svmStep_duties_legal _ _ _)⟩
  | stalled | stopped | modeWritten => exact ⟨rfl, fun p => by simp⟩

end Sys2Proof.Machine
end

section
/-! The invariants of spec/10_state.md R66 over one operation and over one step. -/

namespace Sys2Proof.Machine

/-- The two states agree on everything the Hall engine, `MODE` and the outputs hold but the counts: the fields of R66. -/
structure SameControl (s t : State) : Prop where
  mode : t.host.mode = s.host.mode
  hallEn : t.status.hallEn = s.status.hallEn
  faultStall : t.status.faultStall = s.status.faultStall
  step : t.hall.step = s.hall.step
  hallLast : t.hall.hallLast = s.hall.hallLast
  faultCode : t.hall.faultCode = s.hall.faultCode
  out : t.out = s.out
  stg : t.stg = s.stg

/-- The legal values of the error record and of the modulator's result registers (R55, R62, R63). -/
structure RecordsLegal (e : LastErr) (v : SvmRegs) : Prop where
  err : e.code.toNat ≤ 4
  sector : v.sector ≠ 7
  vref : v.vref.toNat ≤ 46340
  dutyA : v.dutyA.toNat ≤ 65536
  dutyB : v.dutyB.toNat ≤ 65536
  dutyC : v.dutyC.toNat ≤ 65536

theorem Inv.records {s : State} (h : Inv s) : RecordsLegal s.lastErr s.svm := by
  obtain ⟨hsector, hvref⟩ := h.svmLegal
  obtain ⟨hA, hB, hC⟩ := h.svmDuties
  exact ⟨h.errLegal, hsector, hvref, hA, hB, hC⟩

/-- The invariants speak of these fields only. -/
theorem Inv.of_sameControl {s t : State} (h : Inv s) (same : SameControl s t) (legal : RecordsLegal t.lastErr t.svm) :
    Inv t := by
  obtain ⟨hmode, hen, hfault, hstep, hlast, hcode, hout, hstg⟩ := same
  constructor
  case errLegal => exact legal.err
  case svmLegal => exact ⟨legal.sector, legal.vref⟩
  case svmDuties => exact ⟨legal.dutyA, legal.dutyB, legal.dutyC⟩
  all_goals simp only [hmode, hen, hfault, hstep, hlast, hcode, hout, hstg]
  exacts [h.armed, h.banks, h.stepCode, h.stepZero, h.sixStep, h.gateOff, h.faultCode, h.faulted, h.heldOff,
    h.modeLegal, h.stepLegal, h.faultLegal]

/-- A machine with its outputs and its engine off has the invariants. -/
theorem Inv.of_off {t : State} (hen : t.status.hallEn = false) (hstep : t.hall.step = 0) (hlast : t.hall.hallLast = 0)
    (hout : t.out = Bank.off) (hstg : t.stg = Bank.off) (hmode : t.host.mode ≠ 3)
    (hfault : t.status.faultStall = true ↔ t.hall.faultCode = 1) (hcode : t.hall.faultCode.toNat ≤ 1)
    (legal : RecordsLegal t.lastErr t.svm) : Inv t where
  armed h := by simp [hen] at h
  banks := hstg.trans hout.symm
  stepCode := by simp [hstep, hlast]
  stepZero _ := hstep
  sixStep _ := hout ▸ Bank.off_sixStep
  gateOff _ := by rw [hout, Bank.off_gate]
  faultCode := hfault
  faulted _ := ⟨hen, by rw [hout, Bank.off_gate], fun _ => hout⟩
  heldOff _ _ := hout
  modeLegal := hmode
  stepLegal := by rw [hstep, hlast]; decide
  errLegal := legal.err
  faultLegal := hcode
  svmLegal := ⟨legal.sector, legal.vref⟩
  svmDuties := ⟨legal.dutyA, legal.dutyB, legal.dutyC⟩

theorem opErrCode_le (e : OpErr) : (opErrCode e).toNat ≤ 4 := by cases e <;> decide

/-! ### The effects that leave the control fields alone -/

theorem storeReg_sameControl {r : Reg} (hr : r ≠ .mode) (val : Word) (s : State) : SameControl s (storeReg r val s) := by
  cases r with
  | mode => exact absurd rfl hr
  | _ => exact ⟨rfl, rfl, rfl, rfl, rfl, rfl, rfl, rfl⟩

@[simp] theorem storeReg_lastErr (r : Reg) (val : Word) (s : State) : (storeReg r val s).lastErr = s.lastErr := by
  cases r <;> rfl

/-- Of the modulator's registers only the count is written by a store. -/
theorem storeReg_svm (r : Reg) (val : Word) (s : State) :
    ∃ cnt, (storeReg r val s).svm = { s.svm with ovmErrCnt := cnt } := by
  cases r <;> exact ⟨_, rfl⟩

theorem Inv.raiseOpError {s : State} (h : Inv s) (opc : Opcode) (e : OpErr) : Inv (raiseOpError opc e s) :=
  h.of_sameControl ⟨rfl, rfl, rfl, rfl, rfl, rfl, rfl, rfl⟩ { h.records with err := opErrCode_le e }

theorem Inv.storeReg {s : State} (h : Inv s) {r : Reg} (hr : r ≠ .mode) (val : Word) :
    Inv (respond 0 (storeReg r val s)) := by
  obtain ⟨cnt, hsvm⟩ := storeReg_svm r val s
  refine h.of_sameControl { storeReg_sameControl hr val s with } ?_
  rw [respond_lastErr, respond_svm, storeReg_lastErr, hsvm]
  exact { h.records with }

/-! ### The effects on the engine and on the outputs -/

/-- A commutation: an armed machine is in `MODE = 1` and not faulted, the new step is one of 1 to 6, and its two
phases differ. -/
theorem Inv.commutate {s : State} (h : Inv s) {c : Cfg} (hc : Config.WF c) {code : BitVec 3}
    (hen : s.status.hallEn = true) (h0 : code ≠ 0) (h7 : code ≠ 7) :
    Inv (commutate c code (c.hallStepMap s.host.dir code) s) := by
  obtain ⟨hmode, hfault⟩ := h.armed hen
  obtain ⟨hst0, hst7⟩ := hallStepMap_valid hc s.host.dir h0 h7
  exact
    { h with
      armed := fun _ => ⟨hmode, hfault⟩
      banks := rfl
      stepCode := ⟨fun hst => absurd hst hst0, fun hcode => absurd hcode h0⟩
      stepZero := by simp [hen, hmode]
      sixStep := fun _ => patternBank_sixStep (stepPattern_apart hc hst0 hst7) _
      gateOff := fun hne => absurd hmode hne
      faulted := fun ht => absurd (hfault.symm.trans ht) (by decide)
      heldOff := fun _ hst => absurd hst hst0
      stepLegal := ⟨hst7, h7⟩ }

/-- Arming: legal in `MODE = 1` only, and the fault record goes with the flag. -/
theorem Inv.rearm {s : State} (h : Inv s) (hmode : s.host.mode = 1) : Inv (respond 0 (rearm s)) :=
  { h with
    armed := fun _ => ⟨hmode, rfl⟩
    stepZero := by simp [hmode]
    faultCode := by simp
    faulted := by simp
    faultLegal := by simp }

/-- The result registers of a command are legal (R161, R182). -/
theorem svmResults_legal {e : LastErr} {v : SvmRegs} (h : RecordsLegal e v) (c : Cfg) (alpha beta : BitVec 16) :
    RecordsLegal e (svmResults (svmStep c (toS16 alpha) (toS16 beta)) v) := by
  obtain ⟨hvref0, hvref1⟩ := magnitude_mem alpha beta
  obtain ⟨hA, hB, hC⟩ := svmStep_duties_legal c (toS16 alpha) (toS16 beta)
  refine ⟨h.err, sectorCode_ne_seven _, ?_, toNat_ofInt_duty_le hA, toNat_ofInt_duty_le hB, toNat_ofInt_duty_le hC⟩
  have hstored := toNat_ofInt_of_fits (n := 16) hvref0 (by omega)
  show (BitVec.ofInt 16 (magnitude (toS16 alpha) (toS16 beta))).toNat ≤ 46340
  omega

/-- A modulation: in `MODE = 2` the machine is disarmed, so the gates are off and `STEP` is 0. -/
theorem Inv.svmFinish {s : State} (h : Inv s) (hmode : s.host.mode = 2) (c : Cfg) (alpha beta : BitVec 16) :
    Inv (svmFinish (svmStep c (toS16 alpha) (toS16 beta)) s) := by
  obtain ⟨herr, hsector, hvref, hA, hB, hC⟩ := svmResults_legal h.records c alpha beta
  have hmode1 : s.host.mode ≠ 1 := by rw [hmode]; decide
  exact
    { h with
      banks := rfl
      sixStep := fun h1 => absurd h1 hmode1
      gateOff := fun _ => rfl
      faulted := fun ht => ⟨(h.faulted ht).1, rfl, fun hne => absurd hmode hne⟩
      heldOff := fun hne => absurd hmode hne
      svmLegal := ⟨hsector, hvref⟩
      svmDuties := ⟨hA, hB, hC⟩ }

/-- The value checks of `MODE` keep 3 out. -/
theorem mode_ne_three {val : Word} (h : regValueLegal .mode val = true) : val.setWidth 2 ≠ 3 := by
  intro h3
  have hlow : val.extractLsb' 0 2 = 3 := h3 ▸ BitVec.eq_of_toNat_eq rfl
  simp [regValueLegal, hlow] at h

/-- Every operation keeps the invariants. -/
theorem Effect.keepsInv {i : Instr} {s t : State} (heffect : Effect i s t) (h : Inv s) : Inv t := by
  cases heffect with
  | refused e => exact h.raiseOpError _ e
  | answered | recorded | counted | regulated | pidCleared =>
    exact h.of_sameControl ⟨rfl, rfl, rfl, rfl, rfl, rfl, rfl, rfl⟩ h.records
  | commutated hen h0 h7 => exact h.commutate machineCfg_wf hen h0 h7
  | stalled =>
    exact .of_off rfl rfl rfl rfl rfl h.modeLegal (by simp [stallTimeout]) (by simp [stallTimeout]) h.records
  | rearmed hmode => exact h.rearm hmode
  | stopped => exact .of_off rfl rfl rfl rfl rfl h.modeLegal h.faultCode h.faultLegal h.records
  | modulated hmode => exact h.svmFinish hmode _ _ _
  | modeWritten _ hval hdis =>
    have hstep := h.stepZero (.inl hdis)
    exact .of_off hdis hstep (h.stepCode.1 hstep) rfl rfl (mode_ne_three hval) h.faultCode h.faultLegal h.records
  | written _ hr => exact h.storeReg hr _

/-- Taking an operation from the stream touches no register. -/
theorem Inv.advance {s : State} (h : Inv s) (op : Issue) (rest : List Issue) : Inv (advance op rest s) :=
  h.of_sameControl ⟨rfl, rfl, rfl, rfl, rfl, rfl, rfl, rfl⟩ h.records

/-- Settles O47: by the operation kept invariant (`Effect.keepsInv`), the two other steps touching no control field. -/
theorem stepKeepsInv : Obligations.StepKeepsInv := by
  intro s t h hstep
  obtain rfl | ⟨op, rest, ⟨i, heffect⟩ | ⟨opc, e, rfl⟩⟩ := step_effect hstep
  · exact h.of_sameControl ⟨rfl, rfl, rfl, rfl, rfl, rfl, rfl, rfl⟩ h.records
  · exact heffect.keepsInv (h.advance op rest)
  · exact (h.advance op rest).raiseOpError opc e

theorem recordsLegal_reset : RecordsLegal State.reset.lastErr State.reset.svm := by constructor <;> decide

/-- Settles O49: after reset everything is off. -/
theorem resetHasInv : Obligations.ResetHasInv :=
  ⟨.of_off rfl rfl rfl rfl rfl (by decide) (by decide) (by decide) recordsLegal_reset, fun hen => by cases hen⟩

/-! ### The faulted machine -/

/-- The fault is entered with the outputs OFF (spec/60_exceptions.md R227). -/
theorem Effect.off_of_fault_entered {i : Instr} {s t : State} (heffect : Effect i s t)
    (hs : s.status.faultStall = false) (ht : t.status.faultStall = true) : t.out = Bank.off ∧ t.stg = Bank.off := by
  cases heffect with
  | stalled => exact ⟨rfl, rfl⟩
  | written _ hr =>
    rw [respond_status, (storeReg_sameControl hr _ s).faultStall, hs] at ht
    cases ht
  | rearmed => cases ht
  | _ => exact absurd (hs.symm.trans ht) (by decide)

/-- What an operation can leave on the outputs: what was there, OFF, a commutation, or a modulation. -/
theorem Effect.out_cases {i : Instr} {s t : State} (heffect : Effect i s t) :
    t.out = s.out ∨ t.out = Bank.off ∨ (s.status.hallEn = true ∧ t.status.faultStall = s.status.faultStall) ∨
      (s.host.mode = 2 ∧ ∃ alpha beta, i = .svmCompute alpha beta) := by
  cases heffect with
  | stalled | stopped | modeWritten => exact .inr (.inl rfl)
  | commutated hen => exact .inr (.inr (.inl ⟨hen, rfl⟩))
  | modulated hmode => exact .inr (.inr (.inr ⟨hmode, _, _, rfl⟩))
  | written _ hr => exact .inl (storeReg_sameControl hr _ s).out
  | _ => exact .inl rfl

/-- Settles O48: the kept invariants give the faulted machine's outputs; an armed machine is not faulted, so of the two
operations that drive outputs only the modulation is left. -/
theorem faultedOutputsStayOff : Obligations.FaultedOutputsStayOff := by
  intro i s t h hexec hfault
  have heffect := effect_of_exec hexec
  have ht := heffect.keepsInv h
  obtain ⟨hdis, hgate, hoff⟩ := ht.faulted hfault
  refine ⟨fun hs => heffect.off_of_fault_entered hs hfault, fun hmode => ⟨hoff hmode, ht.banks.trans (hoff hmode)⟩,
    fun hsoff => ?_, hdis, hgate⟩
  obtain hout | hout | ⟨hen, hsame⟩ | hsvm := heffect.out_cases
  · exact .inl (hout.trans hsoff)
  · exact .inl hout
  · obtain ⟨-, hclear⟩ := h.armed hen
    exact absurd (hclear.symm.trans (hsame.symm.trans hfault)) (by decide)
  · exact .inr hsvm

/-! ### The stall count -/

@[simp] theorem storeReg_stallCnt (r : Reg) (val : Word) (s : State) :
    (storeReg r val s).hall.stallCnt = s.hall.stallCnt := by cases r <;> rfl

/-- The bound carries over where the engine's arming and count do, and the threshold is not lowered below the count. -/
theorem StallBounded.of_same {s t : State} (h : StallBounded s) (hen : t.status.hallEn = s.status.hallEn)
    (hcnt : t.hall.stallCnt = s.hall.stallCnt)
    (hthr : s.host.stallThr ≤ t.host.stallThr ∨ s.hall.stallCnt ≤ t.host.stallThr) : StallBounded t := by
  intro harmed
  rw [hcnt]
  obtain hthr | hthr := hthr
  · exact BitVec.le_trans (h (hen.symm.trans harmed)) hthr
  · exact hthr

theorem StallBounded.of_zero {t : State} (hcnt : t.hall.stallCnt = 0) : StallBounded t := fun _ => by
  rw [hcnt, BitVec.le_def]; exact Nat.zero_le _

theorem StallBounded.of_disarmed {t : State} (hdis : t.status.hallEn = false) : StallBounded t := fun hen =>
  absurd (hdis.symm.trans hen) (by decide)

theorem Effect.keepsStallBounded {i : Instr} {s t : State} (heffect : Effect i s t) (h : StallBounded s)
    (hthr : s.host.stallThr ≤ t.host.stallThr ∨ s.hall.stallCnt ≤ t.host.stallThr) : StallBounded t := by
  cases heffect with
  | counted _ hle => exact fun _ => BitVec.not_lt.1 hle
  | commutated | rearmed => exact .of_zero rfl
  | stalled | stopped => exact .of_disarmed rfl
  | modeWritten _ _ hdis => exact .of_disarmed hdis
  | written _ hr => exact h.of_same (storeReg_sameControl hr _ s).hallEn (storeReg_stallCnt _ _ s) hthr
  | _ => exact h.of_same rfl rfl hthr

/-- Settles O50: the counting tick compares before it keeps the count, and every other count is 0 or the old one. -/
theorem stallBoundKept : Obligations.StallBoundKept := by
  intro s t h hstep hthr
  obtain rfl | ⟨op, rest, ⟨i, heffect⟩ | ⟨opc, e, rfl⟩⟩ := step_effect hstep
  · exact h.of_same rfl rfl hthr
  · exact heffect.keepsStallBounded h hthr
  · exact h.of_same rfl rfl hthr

end Sys2Proof.Machine
end

section
/-! Who changes the output banks (spec/20_memory.md section 3). -/

namespace Sys2Proof.Machine

/-- Settles O52: of the effects, five write a bank, and the guard of each names its owner (spec/20_memory.md R93); the
others leave both banks as they were. -/
theorem outputsHaveOwners : Obligations.OutputsHaveOwners := by
  intro i s t hexec hchanged
  have unchanged (hout : t.out = s.out) (hstg : t.stg = s.stg) : False :=
    hchanged.elim (· hout) (· hstg)
  cases effect_of_exec hexec with
  | refused | answered | recorded | counted | rearmed | regulated | pidCleared => exact (unchanged rfl rfl).elim
  | written _ hr => exact (unchanged (storeReg_sameControl hr _ s).out (storeReg_sameControl hr _ s).stg).elim
  | commutated hen => exact .inl ⟨_, rfl, hen⟩
  | modulated hmode => exact .inr (.inl ⟨_, _, rfl, hmode⟩)
  | stopped => exact .inr (.inr ⟨rfl, rfl, .inl rfl⟩)
  | stalled => exact .inr (.inr ⟨rfl, rfl, .inr (.inl ⟨rfl, rfl⟩)⟩)
  | modeWritten hi => exact .inr (.inr ⟨rfl, rfl, .inr (.inr ⟨_, hi⟩)⟩)

end Sys2Proof.Machine
end

section
/-! The serial order of a word (spec/20_memory.md section 2). -/

namespace Sys2Proof

/-- The five bytes lie side by side in the word, so joining them one after another gives all forty bits. -/
theorem wordOfSerial_serialBytes (w : OpWord) : wordOfSerial (serialBytes w) = some w := by
  simp only [serialBytes, wordOfSerial, Option.some.injEq]
  iterate 4 rw [BitVec.extractLsb'_append_extractLsb'_eq_extractLsb' (by decide)]
  exact BitVec.extractLsb'_eq_self

/-- Settles O5: the bytes join to the word, and the first and the last of them are the two fields named. -/
theorem serialWordArrives : Obligations.SerialWordArrives :=
  fun w => ⟨wordOfSerial_serialBytes w, rfl, rfl⟩

end Sys2Proof
end

section
/-! Decoding inverted (spec/30_encoding.md sections 1, 2, 4): the words of each opcode byte, what a word that decodes looks
like, and the words that are no operation. -/

namespace Sys2Proof

/-! ### The three parts of the opcode map: reads, writes, engine operations -/

/-- A word is its high bits before its low bits: the fields of an opcode byte, of a Hall operand and of a modulator
operand are cases of it. -/
theorem high_append_low {n m : Nat} (x : BitVec (n + m)) : x.extractLsb' m n ++ x.extractLsb' 0 m = x := by
  rw [BitVec.extractLsb'_append_extractLsb'_eq_extractLsb' (Nat.zero_add m).symm]
  exact BitVec.extractLsb'_eq_self

/-- An opcode byte is its two class bits before its register number. -/
theorem opcode_fields (opc : Opcode) : opc.extractLsb' 6 2 ++ opc.extractLsb' 0 6 = opc :=
  high_append_low (n := 2) (m := 6) opc

theorem decode_wrOpcode (n : RegNum) (opd : Word) : decode (opWord (wrOpcode n) opd) = .ok (.wrReg n opd) := by
  have hclass : (wrOpcode n).extractLsb' 6 2 = 0b10#2 := by revert n; decide
  have hreg : (wrOpcode n).extractLsb' 0 6 = n := by revert n; decide
  rw [decode_opWord, if_pos hclass, hreg]

theorem decode_rdOpcode (n : RegNum) (opd : Word) : decode (opWord (rdOpcode n) opd) = zeroOperand (.rdReg n) opd := by
  have hclass : (rdOpcode n).extractLsb' 6 2 = 0b11#2 := by revert n; decide
  have hreg : (rdOpcode n).extractLsb' 0 6 = n := by revert n; decide
  rw [decode_opWord, if_neg (by rw [hclass]; decide), if_pos hclass, hreg]

theorem decode_engine {opc : Opcode} (h : opc.toNat < 0x80) (opd : Word) :
    decode (opWord opc opd) = decodeEngine opc opd := by
  have hclass : opc.extractLsb' 6 2 ≠ 0b10#2 ∧ opc.extractLsb' 6 2 ≠ 0b11#2 := by revert opc; decide
  rw [decode_opWord, if_neg hclass.1, if_neg hclass.2]

/-- Every opcode byte is that of a write, that of a read, or below 0x80 (spec/30_encoding.md R108). -/
theorem opcode_cases (opc : Opcode) :
    (∃ n, opc = wrOpcode n) ∨ (∃ n, opc = rdOpcode n) ∨ opc.toNat < 0x80 := by
  have hclass : opc.extractLsb' 6 2 = 0b10#2 ∨ opc.extractLsb' 6 2 = 0b11#2 ∨ opc.toNat < 0x80 := by revert opc; decide
  obtain hwr | hrd | hlow := hclass
  · exact .inl ⟨opc.extractLsb' 0 6, by rw [wrOpcode, ← hwr, opcode_fields]⟩
  · exact .inr (.inl ⟨opc.extractLsb' 0 6, by rw [rdOpcode, ← hrd, opcode_fields]⟩)
  · exact .inr (.inr hlow)

/-! ### The formats with must-be-zero bits -/

@[simp] theorem zeroOperand_zero (i : Instr) : zeroOperand i 0 = .ok i := if_pos rfl

theorem zeroOperand_of_ne {opd : Word} (h : opd ≠ 0) (i : Instr) : zeroOperand i opd = .error .illegalOperand := if_neg h

theorem zeroOperand_eq_ok {i j : Instr} {opd : Word} (h : zeroOperand i opd = .ok j) : opd = 0 ∧ j = i := by
  by_cases hopd : opd = 0
  · subst hopd; rw [zeroOperand_zero] at h; cases h; exact ⟨rfl, rfl⟩
  · rw [zeroOperand_of_ne hopd] at h; cases h

/-- An operand is its high 29 bits before its Hall code (spec/30_encoding.md R103). -/
theorem hallOperand_fields (opd : Word) : opd.extractLsb' 3 29 ++ opd.extractLsb' 0 3 = opd :=
  high_append_low (n := 29) (m := 3) opd

@[simp] theorem decodeHall_append (code : BitVec 3) : decodeHall (0#29 ++ code) = .ok (.hallComm code) := by
  revert code; decide

theorem hallOperand_high_eq_zero_iff (opd : Word) : opd.extractLsb' 3 29 = 0 ↔ opd.toNat < 8 := by
  have hdiv : (opd.extractLsb' 3 29).toNat = opd.toNat / 8 := by
    rw [BitVec.extractLsb'_toNat, Nat.shiftRight_eq_div_pow, Nat.mod_eq_of_lt (by omega)]
  rw [← BitVec.toNat_inj, hdiv]
  exact Nat.div_eq_zero_iff_lt (by decide)

theorem decodeHall_of_ge {opd : Word} (h : 8 ≤ opd.toNat) : decodeHall opd = .error .illegalOperand :=
  if_neg fun hzero => by have := (hallOperand_high_eq_zero_iff opd).1 hzero; omega

theorem decodeHall_eq_ok {opd : Word} {j : Instr} (h : decodeHall opd = .ok j) :
    ∃ code, opd = 0#29 ++ code ∧ j = .hallComm code := by
  unfold decodeHall at h
  split at h
  next hzero =>
    cases h
    exact ⟨_, by rw [← BitVec.ofNat_eq_ofNat, ← hzero, hallOperand_fields], rfl⟩
  next => cases h

/-- The operand of a modulator operation is `alpha` before `beta` (spec/30_encoding.md R107). -/
theorem svmOperand_fields (opd : Word) : opd.extractLsb' 16 16 ++ opd.extractLsb' 0 16 = opd :=
  high_append_low (n := 16) (m := 16) opd

theorem decode_svmOpcode (alpha beta : BitVec 16) :
    decode (opWord 0x20 (alpha ++ beta)) = .ok (.svmCompute alpha beta) := by
  rw [decode_engine (by decide)]
  have halpha : (alpha ++ beta).extractLsb' 16 16 = alpha := BitVec.extractLsb'_append_eq_left
  have hbeta : (alpha ++ beta).extractLsb' 0 16 = beta := BitVec.extractLsb'_append_eq_right
  have hengine (opd : Word) : decodeEngine 0x20 opd = .ok (.svmCompute (opd.extractLsb' 16 16) (opd.extractLsb' 0 16)) := rfl
  rw [hengine, halpha, hbeta]

/-! ### Round trips -/

/-- Encoding forgets the spelling, and the operation a spelling stands for is no second spelling (R113, R116). -/
theorem sameWord : ∀ i : Instr, Laws.SameWord.Statement i
  | .nop => Laws.SameWord.nop
  | .hallComm code => Laws.SameWord.hallComm code
  | .hallTick => Laws.SameWord.hallTick
  | .hallArm => Laws.SameWord.hallArm
  | .hallStop => Laws.SameWord.hallStop
  | .pidUpdate measured => Laws.SameWord.pidUpdate measured
  | .pidReset => Laws.SameWord.pidReset
  | .svmCompute alpha beta => Laws.SameWord.svmCompute alpha beta
  | .wrReg n val => Laws.SameWord.wrReg n val
  | .rdReg n => Laws.SameWord.rdReg n
  | .cfgMode val => Laws.SameWord.cfgMode val
  | .cfgDir val => Laws.SameWord.cfgDir val
  | .cfgStallthr val => Laws.SameWord.cfgStallthr val
  | .cfgPeriod val => Laws.SameWord.cfgPeriod val
  | .setPulse val => Laws.SameWord.setPulse val
  | .cfgRoute val => Laws.SameWord.cfgRoute val
  | .pidTarget val => Laws.SameWord.pidTarget val
  | .pidKp val => Laws.SameWord.pidKp val
  | .pidKi val => Laws.SameWord.pidKi val
  | .pidKd val => Laws.SameWord.pidKd val
  | .clrFlags val => Laws.SameWord.clrFlags val
  | .rdHall => Laws.SameWord.rdHall

/-- The ten operations come back from their words: one opcode byte after another, with the format of each. -/
theorem decode_encode_of_core {i : Instr} (hi : i.core = i) : decode (encode i) = .ok i := by
  cases i with
  | nop | hallTick | hallArm | hallStop | pidReset => rfl
  | hallComm code => exact (decode_engine (opc := 0x01) (by decide) _).trans (decodeHall_append code)
  | pidUpdate measured => exact decode_engine (opc := 0x10) (by decide) measured
  | svmCompute alpha beta => exact decode_svmOpcode alpha beta
  | wrReg n val => exact decode_wrOpcode n val
  | rdReg n => exact (decode_rdOpcode n 0).trans (zeroOperand_zero _)
  | _ => cases hi

/-- Settles O1: a second spelling has the word of an operation, and the ten operations come back from their words. -/
theorem decodeOfEncode : Obligations.DecodeOfEncode := by
  intro i
  obtain ⟨hword, hcore⟩ := sameWord i
  rw [← hword, decode_encode_of_core hcore]

/-- What an operation of an opcode byte below 0x80 looks like: the byte and the operand are its own. -/
theorem decodeEngine_eq_ok {opc : Opcode} {opd : Word} {i : Instr} (h : decodeEngine opc opd = .ok i) :
    opc = i.opcode ∧ opd = i.operand ∧ i.core = i := by
  unfold decodeEngine at h
  split_ifs at h with hnop hhall htick harm hstop hpid hreset hsvm
  · obtain ⟨rfl, rfl⟩ := zeroOperand_eq_ok h; exact ⟨hnop, rfl, rfl⟩
  · obtain ⟨code, rfl, rfl⟩ := decodeHall_eq_ok h; exact ⟨hhall, rfl, rfl⟩
  · obtain ⟨rfl, rfl⟩ := zeroOperand_eq_ok h; exact ⟨htick, rfl, rfl⟩
  · obtain ⟨rfl, rfl⟩ := zeroOperand_eq_ok h; exact ⟨harm, rfl, rfl⟩
  · obtain ⟨rfl, rfl⟩ := zeroOperand_eq_ok h; exact ⟨hstop, rfl, rfl⟩
  · cases h; exact ⟨hpid, rfl, rfl⟩
  · obtain ⟨rfl, rfl⟩ := zeroOperand_eq_ok h; exact ⟨hreset, rfl, rfl⟩
  · cases h; exact ⟨hsvm, (svmOperand_fields opd).symm, rfl⟩

theorem decode_opWord_eq_ok {opc : Opcode} {opd : Word} {i : Instr} (h : decode (opWord opc opd) = .ok i) :
    opc = i.opcode ∧ opd = i.operand ∧ i.core = i := by
  obtain ⟨n, rfl⟩ | ⟨n, rfl⟩ | hlow := opcode_cases opc
  · rw [decode_wrOpcode] at h; cases h; exact ⟨rfl, rfl, rfl⟩
  · rw [decode_rdOpcode] at h; obtain ⟨rfl, rfl⟩ := zeroOperand_eq_ok h; exact ⟨rfl, rfl, rfl⟩
  · rw [decode_engine hlow] at h; exact decodeEngine_eq_ok h

theorem eq_encode_of_fields {w : OpWord} {i : Instr} (hopc : opcodeOf w = i.opcode) (hopd : operandOf w = i.operand) :
    w = encode i := by
  rw [encode, ← hopc, ← hopd, opWord_fields]

/-- Settles O2: both fields of a word that decodes are those of the operation. -/
theorem encodeOfDecode : Obligations.EncodeOfDecode := by
  intro w i h
  rw [← opWord_fields w] at h
  obtain ⟨hopc, hopd, hcore⟩ := decode_opWord_eq_ok h
  exact ⟨(eq_encode_of_fields hopc hopd).symm, hcore⟩

/-! ### Selection by mask and match -/

theorem OpcodeRow.selects_iff (r : OpcodeRow) (w : OpWord) : r.selects w = true ↔ w &&& r.mask = r.pattern := by
  simp [OpcodeRow.selects]

/-- A row selects a word field by field: by the opcode byte and by the operand. -/
theorem OpcodeRow.selects_opWord_iff (r : OpcodeRow) (opc : Opcode) (opd : Word) :
    r.selects (opWord opc opd) = true ↔
      opc &&& opcodeOf r.mask = opcodeOf r.pattern ∧ opd &&& operandOf r.mask = operandOf r.pattern := by
  have hmask : opWord opc opd &&& r.mask = opWord (opc &&& opcodeOf r.mask) (opd &&& operandOf r.mask) := by
    conv_lhs => rw [← opWord_fields r.mask]
    exact BitVec.and_append
  rw [r.selects_iff, hmask]
  constructor
  · intro h
    rw [← h, opcodeOf_opWord, operandOf_opWord]
    exact ⟨rfl, rfl⟩
  · rintro ⟨hopc, hopd⟩
    rw [hopc, hopd, opWord_fields]

/-- No two rows share a word: under both masks at once their patterns differ. -/
theorem opcodeRows_apart :
    ∀ r ∈ opcodeRows, ∀ r' ∈ opcodeRows, r.pattern &&& r'.mask = r'.pattern &&& r.mask → r' = r := by decide

theorem selects_unique {w : OpWord} {r r' : OpcodeRow} (hr : r ∈ opcodeRows) (hr' : r' ∈ opcodeRows)
    (h : r.selects w = true) (h' : r'.selects w = true) : r' = r := by
  rw [OpcodeRow.selects_iff] at h h'
  refine opcodeRows_apart r hr r' hr' ?_
  rw [← h, ← h', BitVec.and_assoc, BitVec.and_comm r.mask, BitVec.and_assoc]

theorem wrOpcode_class (n : RegNum) : wrOpcode n &&& 0xC0 = 0x80 := by revert n; decide

theorem rdOpcode_class (n : RegNum) : rdOpcode n &&& 0xC0 = 0xC0 := by revert n; decide

/-- The word of each of the ten operations selects the row of its mnemonic. -/
theorem exists_row_of_core {i : Instr} (hi : i.core = i) :
    ∃ r ∈ opcodeRows, r.mnemonic = i.mnemonic ∧ r.selects (encode i) = true := by
  cases i with
  | nop | hallTick | hallArm | hallStop | pidReset => decide
  | hallComm code => revert code; decide
  | pidUpdate measured =>
    exact ⟨⟨"PID.UPDATE", 0x1000000000, 0xFF00000000⟩, by decide, rfl,
      (OpcodeRow.selects_opWord_iff ..).2 ⟨(by decide : 0x10#8 &&& 0xFF#8 = 0x10#8), BitVec.and_zero⟩⟩
  | svmCompute alpha beta =>
    exact ⟨⟨"SVM.COMPUTE", 0x2000000000, 0xFF00000000⟩, by decide, rfl,
      (OpcodeRow.selects_opWord_iff ..).2 ⟨(by decide : 0x20#8 &&& 0xFF#8 = 0x20#8), BitVec.and_zero⟩⟩
  | wrReg n val =>
    exact ⟨⟨"WR.REG", 0x8000000000, 0xC000000000⟩, by decide, rfl,
      (OpcodeRow.selects_opWord_iff ..).2 ⟨wrOpcode_class n, BitVec.and_zero⟩⟩
  | rdReg n =>
    exact ⟨⟨"RD.REG", 0xC000000000, 0xC0FFFFFFFF⟩, by decide, rfl,
      (OpcodeRow.selects_opWord_iff ..).2 ⟨rdOpcode_class n, BitVec.zero_and⟩⟩
  | _ => cases hi

/-- A row without operand bits selects its pattern only (spec/30_encoding.md R102). -/
theorem OpcodeRow.eq_pattern_of_selects {r : OpcodeRow} {w : OpWord} (hmask : r.mask = BitVec.allOnes 40)
    (h : r.selects w = true) : w = r.pattern := by
  rw [r.selects_iff, hmask, BitVec.and_allOnes] at h
  exact h

theorem and_fullMask {n : Nat} {x pattern : BitVec n} (h : x &&& BitVec.allOnes n = pattern) : x = pattern := by
  rwa [BitVec.and_allOnes] at h

theorem hallOperand_of_mask {opd : Word} (h : opd &&& 0xFFFFFFF8 = 0) : opd = 0#29 ++ opd.extractLsb' 0 3 := by
  have hbits : (opd &&& 0xFFFFFFF8).extractLsb' 3 29 = 0#29 := by rw [h]; rfl
  rw [BitVec.extractLsb'_and] at hbits
  have hhigh : opd.extractLsb' 3 29 = 0#29 := and_fullMask hbits
  rw [← hhigh, hallOperand_fields]

theorem wrOpcode_of_class {opc : Opcode} (h : opc &&& 0xC0 = 0x80) : opc = wrOpcode (opc.extractLsb' 0 6) := by
  revert opc; decide

theorem rdOpcode_of_class {opc : Opcode} (h : opc &&& 0xC0 = 0xC0) : opc = rdOpcode (opc.extractLsb' 0 6) := by
  revert opc; decide

/-- A word that selects a row is the word of one of the ten operations, of the row's mnemonic: the mask fixes the opcode
byte, or its class bits, and the must-be-zero bits of the operand. -/
theorem exists_encode_of_selects {w : OpWord} {r : OpcodeRow} (hr : r ∈ opcodeRows) (h : r.selects w = true) :
    ∃ i : Instr, i.core = i ∧ w = encode i ∧ i.mnemonic = r.mnemonic := by
  have hfields := h
  rw [← opWord_fields w, r.selects_opWord_iff] at hfields
  obtain ⟨hopc, hopd⟩ := hfields
  simp only [opcodeRows, List.mem_cons, List.not_mem_nil, or_false] at hr
  obtain rfl | rfl | rfl | rfl | rfl | rfl | rfl | rfl | rfl | rfl := hr
  · exact ⟨.nop, rfl, OpcodeRow.eq_pattern_of_selects rfl h, rfl⟩
  · exact ⟨.hallComm _, rfl, eq_encode_of_fields (and_fullMask hopc) (hallOperand_of_mask hopd), rfl⟩
  · exact ⟨.hallTick, rfl, OpcodeRow.eq_pattern_of_selects rfl h, rfl⟩
  · exact ⟨.hallArm, rfl, OpcodeRow.eq_pattern_of_selects rfl h, rfl⟩
  · exact ⟨.hallStop, rfl, OpcodeRow.eq_pattern_of_selects rfl h, rfl⟩
  · exact ⟨.pidUpdate _, rfl, eq_encode_of_fields (and_fullMask hopc) rfl, rfl⟩
  · exact ⟨.pidReset, rfl, OpcodeRow.eq_pattern_of_selects rfl h, rfl⟩
  · exact ⟨.svmCompute _ _, rfl, eq_encode_of_fields (and_fullMask hopc) (svmOperand_fields _).symm, rfl⟩
  · exact ⟨.wrReg _ _, rfl, eq_encode_of_fields (wrOpcode_of_class hopc) rfl, rfl⟩
  · exact ⟨.rdReg _, rfl, eq_encode_of_fields (rdOpcode_of_class hopc) (and_fullMask hopd), rfl⟩

/-- Settles O3: the decoded operation's word selects its row, no other row shares the word, and a selected row is that of
an operation with this word, which decoding gives back. -/
theorem decodeFollowsOpcodeMap : Obligations.DecodeFollowsOpcodeMap := by
  constructor
  · intro w i h
    obtain ⟨rfl, hcore⟩ := encodeOfDecode w i h
    obtain ⟨r, hr, hmnemonic, hsel⟩ := exists_row_of_core hcore
    exact ⟨r, hr, hmnemonic, hsel, fun r' hr' hsel' => selects_unique hr hr' hsel hsel'⟩
  · intro w r hr hsel
    obtain ⟨i, hcore, rfl, hmnemonic⟩ := exists_encode_of_selects hr hsel
    exact ⟨i, decode_encode_of_core hcore, hmnemonic⟩

/-! ### Words that are no operation -/

/-- The reserved opcode bytes (spec/30_encoding.md R110 item a): below 0x80, and none of the eight in use there. -/
theorem decode_reserved {opc : Opcode}
    (h : (0x05 ≤ opc.toNat ∧ opc.toNat ≤ 0x0F) ∨ (0x12 ≤ opc.toNat ∧ opc.toNat ≤ 0x1F) ∨
      (0x21 ≤ opc.toNat ∧ opc.toNat ≤ 0x7F))
    (opd : Word) : decode (opWord opc opd) = .error .illegalOpcode := by
  rw [decode_engine (by omega), decodeEngine]
  split_ifs
  case neg => rfl
  all_goals subst opc; exact absurd h (by decide)

/-- The must-be-zero bits of formats N, H and RR (spec/30_encoding.md R102, R103, R106, R110 item b). -/
theorem decode_mustBeZero {opc : Opcode} {opd : Word}
    (h : (opc.toNat ∈ [0x00, 0x02, 0x03, 0x04, 0x11] ∧ opd.toNat ≠ 0) ∨ (opc.toNat = 0x01 ∧ 8 ≤ opd.toNat) ∨
      (0xC0 ≤ opc.toNat ∧ opd.toNat ≠ 0)) :
    decode (opWord opc opd) = .error .illegalOperand := by
  have hne (hopd : opd.toNat ≠ 0) : opd ≠ 0 := fun hzero => hopd (by rw [hzero]; rfl)
  obtain ⟨hopc, hopd⟩ | ⟨hopc, hopd⟩ | ⟨hopc, hopd⟩ := h
  · have hbyte : opc = 0x00 ∨ opc = 0x02 ∨ opc = 0x03 ∨ opc = 0x04 ∨ opc = 0x11 := by clear hopd; revert opc; decide
    obtain rfl | rfl | rfl | rfl | rfl := hbyte <;>
      exact (decode_engine (by decide) opd).trans (zeroOperand_of_ne (hne hopd) _)
  · obtain rfl : opc = 0x01 := BitVec.eq_of_toNat_eq hopc
    exact (decode_engine (by decide) opd).trans (decodeHall_of_ge hopd)
  · obtain ⟨n, rfl⟩ : ∃ n, opc = rdOpcode n := ⟨opc.extractLsb' 0 6, by clear hopd; revert opc; decide⟩
    rw [decode_rdOpcode, zeroOperand_of_ne (hne hopd)]

/-! ### The fields of a word as numbers -/

theorem opcodeOf_toNat (w : OpWord) : (opcodeOf w).toNat = w.toNat / 2 ^ 32 := by
  rw [opcodeOf, BitVec.extractLsb'_toNat, Nat.shiftRight_eq_div_pow, Nat.mod_eq_of_lt (by omega)]

theorem operandOf_toNat (w : OpWord) : (operandOf w).toNat = w.toNat % 2 ^ 32 := by
  rw [operandOf, BitVec.extractLsb'_toNat, Nat.shiftRight_zero]

theorem opcodeOf_eq_ofNat (w : OpWord) : opcodeOf w = BitVec.ofNat 8 (w.toNat / 2 ^ 32) := by
  rw [← opcodeOf_toNat, BitVec.ofNat_toNat, BitVec.setWidth_eq]

/-! ### Worked examples -/

theorem decode_of_encode_eq {w : OpWord} {i : Instr} (h : encode i = w) : decode w = .ok i.core := by
  rw [← h, decodeOfEncode i]

/-- Settles O4: nine words are encodings, which decoding gives back, and the two others fall under the two refusals. -/
theorem encodingExamples : Obligations.EncodingExamples :=
  ⟨decode_of_encode_eq (i := .hallComm 5) (by decide),
    decode_of_encode_eq (i := .hallTick) (by decide),
    decode_of_encode_eq (i := .pidUpdate 7) (by decide),
    decode_of_encode_eq (i := .pidUpdate (BitVec.ofInt 32 (-3))) (by decide),
    decode_of_encode_eq (i := .svmCompute (BitVec.ofInt 16 10000) 0) (by decide),
    decode_of_encode_eq (i := .svmCompute 0 (BitVec.ofInt 16 (-10000))) (by decide),
    decode_of_encode_eq (i := .wrReg (Machine.regNumber .pidKi) 32768) (by decide),
    decode_of_encode_eq (i := .wrReg (Machine.regNumber .pidOutMin) (BitVec.ofInt 32 (-1))) (by decide),
    decode_of_encode_eq (i := .rdReg (Machine.regNumber .status)) (by decide),
    decode_mustBeZero (opc := 0x01) (opd := 8) (by decide), rfl,
    decode_reserved (opc := 0x05) (by decide) 0, rfl⟩

end Sys2Proof
end

section
/-! Steps on words that are no operation (spec/30_encoding.md R110, spec/60_exceptions.md R211). -/

namespace Sys2Proof.Machine

/-- A word that is no operation raises its error in the advanced state, and nothing else (spec/60_exceptions.md R211). -/
theorem step_opErrorOnly_of_decode {s : State} {op : Issue} {rest : List Issue} {e : DecodeError}
    (hstream : s.stream = op :: rest) (hdecode : decode op.word = .error e) :
    ∃ t, step s = .next t ∧
      OpErrorOnly (opcodeOf op.word) (opErrCode (opErrOfDecode e)) (advance op rest s) t :=
  ⟨_, by simp only [step, fetchOp_cons hstream, hdecode]; rfl, raiseOpError_opErrorOnly _ _ _⟩

/-- Settles O8: a reserved opcode byte is no operation. -/
theorem reservedOpcodeRefused : Obligations.ReservedOpcodeRefused := by
  rintro s op rest n hstream rfl hreserved
  have hdecode : decode op.word = .error .illegalOpcode := by
    rw [← opcodeOf_toNat] at hreserved
    rw [← opWord_fields op.word, decode_reserved hreserved]
  rw [← opcodeOf_eq_ofNat]
  exact step_opErrorOnly_of_decode hstream hdecode

/-- Settles O9: a word with a must-be-zero bit set is no operation. -/
theorem mustBeZeroRefused : Obligations.MustBeZeroRefused := by
  rintro s op rest n opd hstream rfl rfl hbits
  have hdecode : decode op.word = .error .illegalOperand := by
    rw [← opcodeOf_toNat, ← operandOf_toNat] at hbits
    rw [← opWord_fields op.word, decode_mustBeZero hbits]
  rw [← opcodeOf_eq_ofNat]
  exact step_opErrorOnly_of_decode hstream hdecode

end Sys2Proof.Machine
end

section
/-! The second spellings (spec/30_encoding.md R113): each executes as the register access it stands for. -/

namespace Sys2Proof.Machine

/-- Settles O45: the register number of a second spelling names the register it accesses. -/
theorem secondSpellingsAgree : Obligations.SecondSpellingsAgree := by
  intro i s
  have hwrite (r : Reg) (val : Word) :
      .next (writeReg (wrOpcode (regNumber r)) r val s) = exec (.wrReg (regNumber r) val) s :=
    (execWrReg_mapped (regOfNumber_regNumber r) val s).symm
  cases i with
  | cfgMode val => exact hwrite .mode val
  | cfgDir val => exact hwrite .dir val
  | cfgStallthr val => exact hwrite .stallThr val
  | cfgPeriod val => exact hwrite .pwmPeriod val
  | setPulse val => exact hwrite .pulse val
  | cfgRoute val => exact hwrite .pidRoute val
  | pidTarget val => exact hwrite .pidTarget val
  | pidKp val => exact hwrite .pidKp val
  | pidKi val => exact hwrite .pidKi val
  | pidKd val => exact hwrite .pidKd val
  | clrFlags val => exact hwrite .status val
  | rdHall => exact (execRdReg_mapped (regOfNumber_regNumber .hallIn) s).symm
  | _ => rfl

/-- A spelling of a write of a plainly written register, with a value that fits, stores it. -/
theorem exec_spelling_plain {i : Instr} {r : Reg} {val : Word} (hi : i.core = .wrReg (regNumber r) val)
    (hr : regAccess r = .rw) (hfits : ∀ n ∈ regUnsignedWidth r, val.toNat < 2 ^ n) (s : State) :
    exec i s = .next (respond 0 (storeReg r val s)) := by
  rw [secondSpellingsAgree i s, hi, exec_wrReg_plain hr hfits]

/-- A write that passes the checks of spec/44_register_access.md R191 is accepted. -/
theorem writeReg_accepted {r : Reg} {val : Word} {s : State} (hw : regWritable r = true)
    (hval : regValueLegal r val = true) (hguard : r = .mode → s.status.hallEn = false) (opc : Opcode) :
    writeReg opc r val s = acceptWrite r val s := by
  rw [writeReg, if_neg (by simp [hw]), if_neg (by simp [hval]), if_neg fun h => by simp [hguard h.1] at h]

/-- `MODE` takes 0, 1 and 2 (spec/44_register_access.md R193). -/
theorem regValueLegal_mode_of_lt {val : Word} (h : val.toNat < 3) : regValueLegal .mode val = true := by
  obtain ⟨n, hn, rfl⟩ : ∃ n < 3, val = BitVec.ofNat 32 n := ⟨val.toNat, h, by simp⟩
  clear h; revert n; decide

/-- `CFG.MODE` while disarmed (spec/44_register_access.md R193). -/
theorem exec_cfgMode_disarmed {val : Word} {s : State} (hval : val.toNat < 3) (hdis : s.status.hallEn = false) :
    exec (.cfgMode val) s = .next (respond 0 (forceOff { s with host.mode := val.setWidth 2 })) := by
  rw [← acceptWrite_mode, ← writeReg_accepted rfl (regValueLegal_mode_of_lt hval) fun _ => hdis]; rfl

/-- `CLR.FLAGS` takes every value (spec/44_register_access.md R204). -/
theorem exec_clrFlags (val : Word) (s : State) :
    exec (.clrFlags val) s = .next (respond 0 { s with status := clearFlags val s.status }) :=
  congrArg Host.Outcome.next (writeReg_accepted (r := .status) rfl rfl (fun h => by cases h) _)

/-- Settles O46: two writes have rules of their own, nine are plain, and `RD.HALL` answers the pins. -/
theorem secondSpellingsComplete : Obligations.SecondSpellingsComplete := by
  intro s val
  have hword {r : Reg} (hr : regUnsignedWidth r = none) : ∀ n ∈ regUnsignedWidth r, val.toNat < 2 ^ n := by simp [hr]
  have hnarrow {r : Reg} {w : Nat} (hr : regUnsignedWidth r = some w) (hval : val.toNat < 2 ^ w) :
      ∀ n ∈ regUnsignedWidth r, val.toNat < 2 ^ n := by simpa [hr] using hval
  refine ⟨exec_cfgMode_disarmed, fun hval => ?_, fun hval => ?_, fun hval => ?_, fun hval => ?_, fun hval => ?_,
    ?_, ?_, ?_, ?_, exec_clrFlags val s, rfl⟩
  · exact exec_spelling_plain (r := .dir) rfl rfl (hnarrow rfl hval) s
  · exact exec_spelling_plain (r := .stallThr) rfl rfl (hnarrow rfl hval) s
  · exact exec_spelling_plain (r := .pwmPeriod) rfl rfl (hnarrow rfl hval) s
  · exact exec_spelling_plain (r := .pulse) rfl rfl (hnarrow rfl hval) s
  · exact exec_spelling_plain (r := .pidRoute) rfl rfl (hnarrow rfl hval) s
  · exact exec_spelling_plain (r := .pidTarget) rfl rfl (hword rfl) s
  · exact exec_spelling_plain (r := .pidKp) rfl rfl (hword rfl) s
  · exact exec_spelling_plain (r := .pidKi) rfl rfl (hword rfl) s
  · exact exec_spelling_plain (r := .pidKd) rfl rfl (hword rfl) s

end Sys2Proof.Machine
end

section
/-! The Hall commutation engine (spec/41_hall_commutation.md): its four operations in full, the outputs of a commutation, a
run of stall ticks, and the life cycle of R121. -/

namespace Sys2Proof

/-- An engine operation of format N (spec/30_encoding.md R102): its word carries operand 0, any other is refused. -/
theorem decode_formatN {opc : Opcode} {i : Instr} (hopc : opc.toNat < 0x80)
    (hi : ∀ opd, decodeEngine opc opd = zeroOperand i opd) (opd : Word) :
    decode (opc ++ opd) = if opd = 0 then .ok i else .error .illegalOperand :=
  (decode_engine hopc opd).trans (hi opd)

end Sys2Proof

namespace Sys2Proof.Machine

/-! ### `HALL.COMM` -/

theorem patternBank_liveDuty_toNat (driven freewheel : Phase) (h : HostRegs) (p : Phase) :
    ((patternBank driven freewheel (liveDuty h)).duty p).toNat =
      if p = driven then min h.pulse.toNat h.pwmPeriod.toNat else 0 := by
  rw [patternBank_duty, apply_ite BitVec.toNat, liveDuty_toNat]
  exact if_congr eq_comm rfl rfl

/-- Settles O14: a well-formed record gives a step in 1..6 whose phases differ, and the bank of that step is committed. -/
theorem validCodeCommutates : Obligations.ValidCodeCommutates := by
  intro s code hen h0 h7
  obtain ⟨hst0, hst7⟩ := hallStepMap_valid machineCfg_wf s.host.dir h0 h7
  refine ⟨_, _, _, stepBank machineCfg (machineCfg.hallStepMap s.host.dir code) s.host, rfl, hst0, hst7, rfl,
    stepPattern_apart machineCfg_wf hst0 hst7, fun p => ?duty, fun p => ?gate, ?next⟩
  case duty => exact patternBank_liveDuty_toNat _ _ _ p
  case gate => rw [stepBank, patternBank_gateOn]; exact decide_eq_decide.2 eq_comm
  case next => exact congrArg Host.Outcome.next (hallComm_valid machineCfg hen h0 h7)

/-- Settles O15: the recorded code takes the saturating increment of the count. -/
theorem invalidCodeRecorded : Obligations.InvalidCodeRecorded := by
  intro s code hen hcode
  exact ⟨satU16Inc s.hall.invHallCnt, satU16Inc_toNat _,
    congrArg Host.Outcome.next (hallComm_invalid machineCfg hen hcode)⟩

/-- Settles O17: the step, the phases and the gate of each row are read off the default tables; the rest is the
commutation under any record. -/
theorem twelveDefaultCases : Obligations.TwelveDefaultCases := by
  unfold Obligations.TwelveDefaultCases
  intro row hrow s hen hdir
  obtain ⟨h0, h7, hstep, hdriven, hgate⟩ : row.2.1 ≠ 0 ∧ row.2.1 ≠ 7 ∧
      Config.sample.hallStepMap row.1 row.2.1 = row.2.2.1 ∧
      (Config.sample.stepPattern row.2.2.1).1 = row.2.2.2.1 ∧
      gateBit (Config.sample.stepPattern row.2.2.1).2 = row.2.2.2.2 := by
    clear hdir; revert row; decide
  rw [hallComm_valid _ hen h0 h7, hdir, hstep]
  refine ⟨rfl, fun p => ?_, hgate⟩
  rw [commutate_out, stepBank, patternBank_liveDuty_toNat, hdriven]

/-! ### `HALL.TICK` -/

/-- The comparison of R128 in numbers: with threshold 65535 it never holds, because the count saturates. -/
theorem lt_satU16Inc_iff (thr cnt : BitVec 16) : thr < satU16Inc cnt ↔ thr.toNat < min (cnt.toNat + 1) 65535 := by
  rw [BitVec.lt_def, satU16Inc_toNat]

theorem exec_hallTick_disarmed {s : State} (hdis : s.status.hallEn = false) :
    exec .hallTick s = .next (respond 0 s) := execHallTick_disarmed hdis

theorem exec_hallTick_count {s : State} (hen : s.status.hallEn = true)
    (hle : min (s.hall.stallCnt.toNat + 1) 65535 ≤ s.host.stallThr.toNat) :
    exec .hallTick s = .next (respond 0 { s with hall.stallCnt := satU16Inc s.hall.stallCnt }) :=
  execHallTick_count hen (by rw [lt_satU16Inc_iff]; exact not_lt.2 hle)

theorem exec_hallTick_fault {s : State} (hen : s.status.hallEn = true)
    (hlt : s.host.stallThr.toNat < min (s.hall.stallCnt.toNat + 1) 65535) :
    exec .hallTick s = .next (respond 0 (enterFault { s with hall.stallCnt := satU16Inc s.hall.stallCnt })) :=
  execHallTick_fault hen ((lt_satU16Inc_iff _ _).2 hlt)

/-- The entry to the terminal fault (spec/60_exceptions.md R227) as one update of the state. -/
theorem enterFault_eq (s : State) :
    enterFault s = { s with
      status := { s.status with hallEn := false, faultStall := true }
      hall := { s.hall with step := 0, hallLast := 0, faultCode := 1 }
      out := Bank.off, stg := Bank.off
      events := s.events ++ [.commit, .fault 1] } := by
  simp [enterFault, forceOff, commit, stage, emit, stallTimeout]

/-- Settles O18: the count is the saturating increment, and the two outcomes of the comparison are the two clauses. -/
theorem stallTickRule : Obligations.StallTickRule := by
  refine ⟨fun s hdis => exec_hallTick_disarmed hdis, fun s hen => ?_, decode_formatN (by decide) fun _ => rfl⟩
  have hcnt := satU16Inc_toNat s.hall.stallCnt
  refine ⟨satU16Inc s.hall.stallCnt, hcnt, fun hle => exec_hallTick_count hen (hcnt ▸ hle), fun hlt => ?_⟩
  rw [exec_hallTick_fault hen (hcnt ▸ hlt), enterFault_eq]
  rfl

/-! ### A run of ticks -/

theorem runTicks_succ {s t : State} (h : exec .hallTick s = .next t) (k : Nat) : runTicks (k + 1) s = runTicks k t := by
  simp only [runTicks, h]

/-- A run of ticks in two parts, the first of which is known. -/
theorem runTicks_add {j : Nat} {s t : State} (h : runTicks j s = some t) (k : Nat) : runTicks (j + k) s = runTicks k t := by
  induction j generalizing s with
  | zero => cases h; rw [Nat.zero_add]
  | succ j ih =>
    obtain ⟨s', hs', -⟩ := exec_effect .hallTick s
    rw [runTicks_succ hs'] at h
    rw [Nat.succ_add, runTicks_succ hs', ih h]

/-- Ticks while disarmed change the response only. -/
theorem runTicks_disarmed (k : Nat) {s : State} (hdis : s.status.hallEn = false) :
    ∃ r, runTicks k s = some { s with resp := r } := by
  induction k generalizing s with
  | zero => exact ⟨s.resp, rfl⟩
  | succ k ih =>
    rw [runTicks_succ (exec_hallTick_disarmed hdis)]
    exact ih hdis

/-- Ticks of an armed engine that do not carry the saturating count past the threshold change the count and the response
only. -/
theorem runTicks_counting (k : Nat) {s : State} (hen : s.status.hallEn = true)
    (hle : min (s.hall.stallCnt.toNat + k) 65535 ≤ s.host.stallThr.toNat) :
    ∃ (cnt : BitVec 16) (r : Option Response), cnt.toNat = min (s.hall.stallCnt.toNat + k) 65535 ∧
      runTicks k s = some { s with hall.stallCnt := cnt, resp := r } := by
  induction k generalizing s with
  | zero =>
    have := s.hall.stallCnt.isLt
    exact ⟨s.hall.stallCnt, s.resp, by omega, rfl⟩
  | succ k ih =>
    have hinc := satU16Inc_toNat s.hall.stallCnt
    rw [runTicks_succ (exec_hallTick_count hen (by omega))]
    obtain ⟨cnt, r, hcnt, hrun⟩ := ih (s := respond 0 { s with hall.stallCnt := satU16Inc s.hall.stallCnt }) hen
      (show min ((satU16Inc s.hall.stallCnt).toNat + k) 65535 ≤ s.host.stallThr.toNat by omega)
    exact ⟨cnt, r, hcnt.trans (show min ((satU16Inc s.hall.stallCnt).toNat + k) 65535 = _ by omega), hrun⟩

/-- The tick that crosses the threshold enters the fault; those after it find the engine disarmed. -/
theorem runTicks_stalling (k : Nat) {s : State} (hen : s.status.hallEn = true)
    (hlt : s.host.stallThr.toNat < min (s.hall.stallCnt.toNat + 1) 65535) :
    ∃ r, runTicks (k + 1) s =
      some { enterFault { s with hall.stallCnt := satU16Inc s.hall.stallCnt } with resp := r } := by
  rw [runTicks_succ (exec_hallTick_fault hen hlt)]
  exact runTicks_disarmed k rfl

theorem faultReports_enterFault (s : State) : faultReports (enterFault s).events = faultReports s.events + 1 := by
  simp [faultReports, List.countP_append]

/-- Settles O19: the threshold's ticks only count, the next one enters the fault, the later ones change nothing; with
threshold 65535 every tick only counts. -/
theorem stallFaultAfterThreshold : Obligations.StallFaultAfterThreshold := by
  intro s hen hclear hzero
  have hcnt0 : s.hall.stallCnt.toNat = 0 := by rw [hzero]; rfl
  have hthr := s.host.stallThr.isLt
  have counting (k : Nat) (hle : min k 65535 ≤ s.host.stallThr.toNat) := runTicks_counting k hen (by omega)
  refine ⟨fun k hk => ?tolerated, fun hlow k hk => ?faulted, fun hmax k => ?never⟩
  case tolerated =>
    obtain ⟨cnt, r, hcnt, hrun⟩ := counting k (by omega)
    exact ⟨_, hrun, hen, by rw [hcnt]; omega, rfl, rfl⟩
  case faulted =>
    obtain ⟨j, rfl⟩ : ∃ j, k = s.host.stallThr.toNat + (j + 1) := ⟨k - s.host.stallThr.toNat - 1, by omega⟩
    obtain ⟨cnt, r, hcnt, hrun⟩ := counting s.host.stallThr.toNat (by omega)
    obtain ⟨r', hfault⟩ := runTicks_stalling j (s := { s with hall.stallCnt := cnt, resp := r }) hen
      (show s.host.stallThr.toNat < min (cnt.toNat + 1) 65535 by omega)
    have hcrossed := satU16Inc_toNat cnt
    refine ⟨_, (runTicks_add hrun (j + 1)).trans hfault, rfl, rfl, rfl, ?_, faultReports_enterFault _⟩
    exact hcrossed.trans (by omega)
  case never =>
    obtain ⟨cnt, r, -, hrun⟩ := counting k (by omega)
    exact ⟨_, hrun, hen, hclear⟩

/-! ### The life cycle -/

/-- What an operation can do to the two flags of the life cycle (R121): keep both, arm, disarm, or enter the fault. -/
theorem Effect.condition_cases {i : Instr} {s t : State} (heffect : Effect i s t) :
    (t.status.hallEn = s.status.hallEn ∧ t.status.faultStall = s.status.faultStall) ∨
    (i = .hallArm ∧ s.host.mode = 1 ∧ t.status.hallEn = true ∧ t.status.faultStall = false) ∨
    (i = .hallStop ∧ t.status.hallEn = false ∧ t.status.faultStall = s.status.faultStall) ∨
    (i = .hallTick ∧ s.status.hallEn = true ∧ s.host.stallThr.toNat < min (s.hall.stallCnt.toNat + 1) 65535 ∧
      t.status.hallEn = false ∧ t.status.faultStall = true) := by
  cases heffect with
  | rearmed hmode => exact .inr (.inl ⟨rfl, hmode, rfl, rfl⟩)
  | stopped => exact .inr (.inr (.inl ⟨rfl, rfl, rfl⟩))
  | stalled hen hthr => exact .inr (.inr (.inr ⟨rfl, hen, (lt_satU16Inc_iff _ _).1 hthr, rfl, rfl⟩))
  | written _ hr => exact .inl ⟨(storeReg_sameControl hr _ s).hallEn, (storeReg_sameControl hr _ s).faultStall⟩
  | _ => exact .inl ⟨rfl, rfl⟩

/-- Settles O22: each clause against the four ways the flags can change. -/
theorem conditionTransitions : Obligations.ConditionTransitions := by
  intro i s t hexec
  obtain ⟨hen, hfault⟩ | ⟨hi, hmode, hen, hfault⟩ | ⟨hi, hen, hfault⟩ | ⟨hi, harmed, hthr, hen, hfault⟩ :=
    (effect_of_exec hexec).condition_cases
  case inl =>
    rw [hen, hfault]
    exact ⟨.inl, .inl, by simp +contextual, by simp +contextual⟩
  case inr.inl => simp [hi, hmode, hen, hfault]
  case inr.inr.inl => simp [hi, hen, hfault]
  case inr.inr.inr => simp [hi, harmed, hthr, hen, hfault]

/-- Settles O20: the two outcomes of the mode check, the word, and the third clause of the life cycle. -/
theorem armRule : Obligations.ArmRule := by
  refine ⟨fun s hmode => execHallArm_ok hmode, fun s hmode => ?_, decode_formatN (by decide) fun _ => rfl,
    fun i s t hexec hfault hi => ?_⟩
  · exact ⟨_, execHallArm_wrongMode hmode, raiseOpError_opErrorOnly _ .wrongMode s⟩
  · obtain ⟨-, -, leaves, -⟩ := conditionTransitions i s t hexec
    by_contra ht
    obtain ⟨harm, -⟩ := leaves hfault (Bool.eq_false_iff.2 ht)
    exact hi harm

/-- Settles O21: `HALL.STOP` has no guard, so its one next state is the stated one. -/
theorem stopRule : Obligations.StopRule :=
  ⟨fun _ => rfl, decode_formatN (by decide) fun _ => rfl⟩

end Sys2Proof.Machine
end

section
/-! The PID regulator (spec/42_pid.md): the update in full, what it depends on, the reset, and who writes the data
registers. -/

namespace Sys2Proof.Machine

/-! ### `PID.UPDATE` -/

/-- The state an update leaves, by the values it computes (spec/42_pid.md R143). -/
def regulate (measured : Word) (r : PidStep) (s : State) : State :=
  respond (toU32 r.out) { s with
    pid := { measured := measured, error := toU32 r.e, prevError := toU32 r.e
             integral := toU32 r.i1, out := toU32 r.out }
    status := satFlags r.i0 r.i1 r.raw r.out s.status
    host.pulse := routedPulse s.host r.out }

section
variable (measured : Word) (r : PidStep) (s : State)

@[simp] theorem regulate_pid : (regulate measured r s).pid = ⟨measured, toU32 r.e, toU32 r.e, toU32 r.i1, toU32 r.out⟩ := rfl
@[simp] theorem regulate_host : (regulate measured r s).host = { s.host with pulse := routedPulse s.host r.out } := rfl
@[simp] theorem regulate_resp : (regulate measured r s).resp = some ⟨0, toU32 r.out⟩ := rfl
@[simp] theorem regulate_pidIntSat : (regulate measured r s).status.pidIntSat = decide (r.i0 ≠ r.i1) := rfl
@[simp] theorem regulate_pidOutSat : (regulate measured r s).status.pidOutSat = decide (r.raw ≠ r.out) := rfl

/-- An update has one next state, whatever the mode, the flags and the operand. -/
theorem exec_pidUpdate :
    exec (.pidUpdate measured) s = .next (regulate measured (pidStep s.host s.pid (toS32 measured)) s) := rfl

end

/-- The saturated error survives being stored as a word. -/
theorem toS32_toU32_satS32 (x : Int) : toS32 (toU32 (satS32 x)) = satS32 x := by
  obtain ⟨hlo, hhi⟩ := satS32_mem x
  exact toS32_toU32 hlo hhi

/-- A value clamped to limits that are words survives being stored as a word, inverted limits included: the result is
then the upper limit (spec/00_scope.md R10). -/
theorem toS32_toU32_clamp (x : Int) (lo hi : Word) :
    toS32 (toU32 (clamp x (toS32 lo) (toS32 hi))) = clamp x (toS32 lo) (toS32 hi) := by
  obtain ⟨hlo, -⟩ := toS32_mem lo
  obtain ⟨hhi, hhi'⟩ := toS32_mem hi
  rcases le_or_gt (toS32 lo) (toS32 hi) with hord | hinv
  · obtain ⟨h1, h2⟩ := clamp_mem (x := x) hord
    exact toS32_toU32 (hlo.trans h1) (h2.trans hhi')
  · rw [clamp_inverted hinv]
    exact toS32_toU32 hhi hhi'

/-- A routed output lands in `PULSE` without loss: the period bounds it. -/
theorem routedPulse_routed {h : HostRegs} (hroute : h.pidRoute = 1) (out : Int) :
    ((routedPulse h out).toNat : Int) = clamp out 0 h.pwmPeriod.toNat := by
  obtain ⟨hlo, hhi⟩ := clamp_mem (x := out) (Int.natCast_nonneg h.pwmPeriod.toNat)
  have hperiod := h.pwmPeriod.isLt
  rw [routedPulse, if_pos hroute]
  exact toNat_ofInt_of_fits hlo (by omega)

theorem routedPulse_unrouted {h : HostRegs} (hroute : h.pidRoute ≠ 1) (out : Int) : routedPulse h out = h.pulse :=
  if_neg hroute

/-- Settles O23: each intermediate is the one of `pidStep`; what is stored is a saturated or clamped value, so it is
stored whole; the scale is removed by a floor. -/
theorem pidUpdateRule : Obligations.PidUpdateRule := by
  refine ⟨fun s measured => ?_, decode_engine (opc := 0x10) (by decide)⟩
  let r := pidStep s.host s.pid (toS32 measured)
  obtain ⟨hfloor, hceil⟩ := asr_floor r.acc 16
  have herror : toS32 (toU32 r.e) = r.e := toS32_toU32_satS32 _
  have hintegral : toS32 (toU32 r.i1) = r.i1 := toS32_toU32_clamp _ _ _
  have hout : toS32 (toU32 r.out) = r.out := toS32_toU32_clamp _ _ _
  exact ⟨r.e, r.i0, r.i1, r.d, r.acc, r.raw, r.out, regulate measured r s, exec_pidUpdate measured s,
    rfl, rfl, rfl, rfl, rfl, hfloor, hceil, rfl,
    rfl, herror, herror, hintegral, hout, decide_eq_true_iff, decide_eq_true_iff,
    fun hroute => routedPulse_routed hroute r.out, fun hroute => routedPulse_unrouted hroute r.out, rfl⟩

/-! ### The memory of the regulator -/

/-- Of the data registers the arithmetic reads two. -/
theorem pidStep_congr {p q : PidRegs} (hintegral : p.integral = q.integral) (hprev : p.prevError = q.prevError)
    (h : HostRegs) (m : Int) : pidStep h p m = pidStep h q m := by
  simp only [pidStep, hintegral, hprev]

/-- Settles O24: equal computed values and equal configurations leave the same results. -/
theorem pidMemoryIsTwoRegisters : Obligations.PidMemoryIsTwoRegisters := by
  intro s₁ s₂ measured hhost hintegral hprev
  have hstep : pidStep s₁.host s₁.pid (toS32 measured) = pidStep s₂.host s₂.pid (toS32 measured) := by
    rw [hhost, pidStep_congr hintegral hprev]
  refine ⟨_, _, exec_pidUpdate measured s₁, exec_pidUpdate measured s₂, ?_⟩
  rw [hstep]
  simp [hhost]

/-! ### `PID.RESET` and the other operations -/

@[simp] theorem storeReg_pid (r : Reg) (val : Word) (s : State) : (storeReg r val s).pid = s.pid := by
  cases r <;> rfl

/-- Only the regulator's own two operations write its data registers. -/
theorem Effect.keepsPid {i : Instr} {s t : State} (heffect : Effect i s t) (hreset : i ≠ .pidReset)
    (hupdate : ∀ measured, i ≠ .pidUpdate measured) : t.pid = s.pid := by
  cases heffect with
  | regulated => exact absurd rfl (hupdate _)
  | pidCleared => exact absurd rfl hreset
  | written => rw [respond_pid, storeReg_pid]
  | _ => rfl

/-- Settles O25: the reset has one next state, its word is of format N, and the rest is the frame of every effect. -/
theorem pidResetRule : Obligations.PidResetRule :=
  ⟨fun _ => rfl, Sys2Proof.decode_formatN (by decide) fun _ => rfl,
    fun _ _ _ hexec hreset hupdate => (effect_of_exec hexec).keepsPid hreset hupdate⟩

end Sys2Proof.Machine
end

section
/-! The steps of the modulator one by one (spec/43_svm_ovm.md sections 2 to 4): magnitude, regime, tables, correction,
sectors, redistribution. -/

namespace Sys2Proof.Machine

/-! ### Magnitude and regime -/

/-- Settles O26: the square root of the model is the floor root, and a sum of squares is no negative number. -/
theorem magnitudeIsFloorRoot : Obligations.MagnitudeIsFloorRoot := by
  intro alpha beta
  obtain ⟨hle, hlt⟩ := isqrt_spec (alpha * alpha + beta * beta).toNat
  have hsum : 0 ≤ alpha * alpha + beta * beta := add_nonneg (mul_self_nonneg _) (mul_self_nonneg _)
  zify at hle hlt
  rw [Int.toNat_of_nonneg hsum] at hle hlt
  exact ⟨Int.natCast_nonneg _, hle, hlt⟩

/-- The tree of thresholds, whatever their order (R164). -/
theorem classify_cases (c : Cfg) (vref : Int) :
    (vref < c.vrefM1Start ∧ classify c vref = .linear) ∨
    (c.vrefM1Start ≤ vref ∧ vref < c.vrefM2Start ∧ classify c vref = .ovmMode1) ∨
    (c.vrefM1Start ≤ vref ∧ c.vrefM2Start ≤ vref ∧ vref < c.vrefM2End ∧ classify c vref = .ovmMode2) ∨
    (c.vrefM1Start ≤ vref ∧ c.vrefM2Start ≤ vref ∧ c.vrefM2End ≤ vref ∧ classify c vref = .error) := by
  unfold classify
  split_ifs <;> simp_all

/-- Settles O27: in each case of the tree the other three intervals are excluded by the order of the thresholds. -/
theorem regimeIntervals : Obligations.RegimeIntervals := by
  rintro c vref ⟨⟨-, h12, h2e, -, -⟩, -⟩
  obtain ⟨h, heq⟩ | ⟨h, h', heq⟩ | ⟨-, h, h', heq⟩ | ⟨-, -, h, heq⟩ := classify_cases c vref <;> rw [heq] <;>
    simp only [reduceCtorEq, true_iff, false_iff] <;> omega

/-- The two over-modulation regimes make up one interval, the one in which the tables are read (R165). -/
theorem vref_mem_of_overmodulation {c : Cfg} (hc : Config.WF c) {vref : Int}
    (h : classify c vref = .ovmMode1 ∨ classify c vref = .ovmMode2) : c.vrefM1Start ≤ vref ∧ vref < c.vrefM2End := by
  obtain ⟨-, h1, h2, -⟩ := regimeIntervals c vref hc
  obtain ⟨⟨-, h12, h2e, -, -⟩, -⟩ := hc
  rw [h1, h2] at h
  omega

/-! ### The tables -/

/-- The gain index is the floor of the quotient, and item b of R7 keeps it inside the table. -/
theorem gainIndex_floor {c : Cfg} (hc : Config.WF c) {vref : Int} (hlo : c.vrefM1Start ≤ vref) :
    gainIndex c vref * c.vrefIdxStep ≤ vref - c.vrefM1Start ∧
    vref - c.vrefM1Start < (gainIndex c vref + 1) * c.vrefIdxStep := by
  obtain ⟨⟨-, -, -, -, hstep⟩, -⟩ := hc
  exact tdiv_floor (by omega) (by omega)

/-- The index grows with `vref`, so that of the largest `vref` below ERROR bounds it. -/
theorem gainIndex_le_last {c : Cfg} (hc : Config.WF c) {vref : Int} (hhi : vref < c.vrefM2End) :
    gainIndex c vref ≤ gainIndex c (c.vrefM2End - 1) := by
  obtain ⟨⟨-, -, -, -, hstep⟩, -⟩ := hc
  exact Int.tdiv_le_tdiv (by omega) (by omega)

theorem gainIndex_mem {c : Cfg} (hc : Config.WF c) {vref : Int} (hlo : c.vrefM1Start ≤ vref) (hhi : vref < c.vrefM2End) :
    0 ≤ gainIndex c vref ∧ gainIndex c vref ≤ 191 := by
  have hlast := gainIndex_le_last hc hhi
  obtain ⟨⟨-, -, -, -, hstep⟩, ⟨hgain, -, -⟩, -⟩ := hc
  exact ⟨tdiv_nonneg (by omega) (by omega), hlast.trans hgain⟩

theorem gammaIndex_mem {c : Cfg} (hc : Config.WF c) {vref : Int} (hhi : vref < c.vrefM2End) :
    0 ≤ gammaIndex c vref ∧ gammaIndex c vref ≤ 99 := by
  have hlast := gainIndex_le_last hc hhi
  obtain ⟨-, ⟨-, hgamma, -⟩, -⟩ := hc
  change gainIndex c (c.vrefM2End - 1) - c.gammaIdxOffset ≤ 99 at hgamma
  unfold gammaIndex
  omega

/-- An index inside the table is not changed by the reduction to the table's size (log entry 12). -/
theorem gain_eq_entry {c : Cfg} {vref : Int} {i : Fin 192} (h : gainIndex c vref = i.val) :
    gain c vref = (c.gainLut i).toNat := by
  rw [gain, h, Int.toNat_natCast, Fin.ofNat_val_eq_self]

theorem gamma_eq_entry {c : Cfg} {vref : Int} {j : Fin 100} (h : gammaIndex c vref = j.val) :
    gamma c vref .ovmMode2 = (c.gammaLut j).toNat := by
  rw [gamma, h, Int.toNat_natCast, Fin.ofNat_val_eq_self]

@[simp] theorem gamma_linear (c : Cfg) (vref : Int) : gamma c vref .linear = 0 := rfl
@[simp] theorem gamma_ovmMode1 (c : Cfg) (vref : Int) : gamma c vref .ovmMode1 = 0 := rfl
@[simp] theorem gamma_error (c : Cfg) (vref : Int) : gamma c vref .error = 0 := rfl

theorem gain_mem (c : Cfg) (vref : Int) : 0 ≤ gain c vref ∧ gain c vref ≤ 65535 := by
  have := (c.gainLut (Fin.ofNat Config.gainLutSize (gainIndex c vref).toNat)).isLt
  unfold gain
  omega

theorem gamma_mem (c : Cfg) (vref : Int) (r : Regime) : 0 ≤ gamma c vref r ∧ gamma c vref r ≤ 65535 := by
  cases r with
  | ovmMode2 =>
    have := (c.gammaLut (Fin.ofNat Config.gammaLutSize (gammaIndex c vref).toNat)).isLt
    simp only [gamma]
    omega
  | linear | ovmMode1 | error => simp

/-! ### The correction -/

section
variable (c : Cfg) (vref x : Int)
@[simp] theorem correct_linear : correct c vref .linear x = x := rfl
@[simp] theorem correct_ovmMode1 : correct c vref .ovmMode1 x = tdiv (x * gain c vref) 32768 := rfl
@[simp] theorem correct_ovmMode2 : correct c vref .ovmMode2 x = tdiv (x * gain c vref) 32768 := rfl
@[simp] theorem correct_error : correct c vref .error x = 0 := rfl

/-- Truncation toward zero makes the correction odd (R167). -/
theorem correct_neg (r : Regime) : correct c vref r (-x) = -correct c vref r x := by
  cases r with
  | linear => rfl
  | ovmMode1 | ovmMode2 => rw [correct, neg_mul, tdiv_neg]; rfl
  | error => rfl
end

/-- Settles O28: the two indices are the computed ones, which a well-formed record keeps inside the tables. -/
theorem tableIndicesInside : Obligations.TableIndicesInside := by
  refine ⟨fun c vref hc hlo hhi => ?_,
    fun c vref x => ⟨correct_linear c vref x, correct_error c vref x, correct_neg c vref x⟩⟩
  obtain ⟨hi0, hi1⟩ := gainIndex_mem hc hlo hhi
  obtain ⟨hj0, hj1⟩ := gammaIndex_mem hc hhi
  obtain ⟨hfloor, hceil⟩ := gainIndex_floor hc hlo
  obtain ⟨i, hi⟩ : ∃ i : Fin 192, gainIndex c vref = i.val := ⟨⟨(gainIndex c vref).toNat, by omega⟩, by simp [hi0]⟩
  obtain ⟨j, hj⟩ : ∃ j : Fin 100, gammaIndex c vref = j.val := ⟨⟨(gammaIndex c vref).toNat, by omega⟩, by simp [hj0]⟩
  have hgain := gain_eq_entry hi
  rw [hi] at hfloor hceil
  refine ⟨i, hfloor, hceil, hgain, fun x => ?corrected, j, ?low, gamma_eq_entry hj⟩
  case corrected => rw [← hgain]; exact ⟨correct_ovmMode1 c vref x, correct_ovmMode2 c vref x⟩
  case low => rw [← hj, ← hi]; rfl

/-! ### Projection, sector, raw dwell times -/

/-- The one rounding keeps the identity of the axes exact (R168). -/
theorem project_x_eq_add (ac bc : Int) : (project ac bc).x = (project ac bc).y + (project ac bc).z := by
  simp only [project_x, project_y, project_z]; ring

/-- The decision tree of R169, each sector with the conditions that lead to it. -/
theorem sectorOf_cases (v : Axes) :
    (sectorOf v = .s1 ∧ 0 ≤ v.y ∧ v.z < 0 ∧ 0 < v.x) ∨ (sectorOf v = .s2 ∧ 0 ≤ v.y ∧ 0 ≤ v.z) ∨
    (sectorOf v = .s3 ∧ v.y < 0 ∧ 0 ≤ v.z ∧ 0 < v.x) ∨ (sectorOf v = .s4 ∧ v.y < 0 ∧ 0 ≤ v.z ∧ v.x ≤ 0) ∨
    (sectorOf v = .s5 ∧ v.y < 0 ∧ v.z < 0) ∨ (sectorOf v = .s6 ∧ 0 ≤ v.y ∧ v.z < 0 ∧ v.x ≤ 0) := by
  unfold sectorOf
  split_ifs <;> simp_all

/-- Settles O29: per sector the formula of the table, its sum by `X = Y + Z`. -/
theorem sectorFormulas : Obligations.SectorFormulas := by
  intro ac bc
  obtain ⟨h1, h2⟩ := rawDwell_nonneg ac bc
  have hx := project_x_eq_add ac bc
  refine ⟨axisTerm bc, project ac bc, _, rfl, rfl, rfl, rfl, rfl, rfl, hx, h1, h2, ?_⟩
  generalize project ac bc = v at hx
  obtain ⟨hs, h⟩ | ⟨hs, h⟩ | ⟨hs, h⟩ | ⟨hs, h⟩ | ⟨hs, h⟩ | ⟨hs, h⟩ := sectorOf_cases v <;> rw [hs] <;>
    simp only [rawDwell, reduceCtorEq, false_and, or_false, false_or, true_and] <;> omega

/-- The raw dwell times are axis quantities up to their sign. -/
theorem rawDwell_le {v : Axes} {m : Int} (hx : |v.x| ≤ m) (hy : |v.y| ≤ m) (hz : |v.z| ≤ m) (sec : Sector) :
    (rawDwell sec v).t1 ≤ m ∧ (rawDwell sec v).t2 ≤ m := by
  rw [abs_le] at hx hy hz
  cases sec <;> simp only [rawDwell] <;> omega

/-- The differences of the duties are the axes, in every sector (R179), when the dwell times are the raw ones. -/
theorem assign_levels_rawDwell_diff {v : Axes} (hx : v.x = v.y + v.z) (sec : Sector) :
    (assign sec (levels (rawDwell sec v))).b - (assign sec (levels (rawDwell sec v))).a = 2 * v.z ∧
    (assign sec (levels (rawDwell sec v))).c - (assign sec (levels (rawDwell sec v))).a = -2 * v.y ∧
    (assign sec (levels (rawDwell sec v))).c - (assign sec (levels (rawDwell sec v))).b = -2 * v.x := by
  cases sec <;> simp only [assign, levels, rawDwell] <;> omega

/-! ### Redistribution -/

/-- Settles O30: below the edge nothing changes; above it one floor division and a difference. -/
theorem edgeRescale : Obligations.EdgeRescale := by
  intro t h1 h2
  refine ⟨rescale_of_le, fun hsum => ?_⟩
  obtain ⟨hfloor, hceil⟩ := tdiv_floor (a := t.t1 * 32768) (b := t.t1 + t.t2) (by omega) (by omega)
  obtain ⟨hr1, hr2, -⟩ := rescale_inPeriod h1 h2
  rw [rescale_of_gt hsum] at hr1 hr2 ⊢
  exact ⟨hfloor, hceil, add_sub_cancel _ _, hr1, hr2⟩

section
variable {t : Dwell} (h1 : 0 ≤ t.t1) (h2 : 0 ≤ t.t2) (hsum : 0 < t.t1 + t.t2)
include h1 hsum

theorem edgeShare_floor :
    edgeShare t * (t.t1 + t.t2) ≤ t.t1 * 32768 ∧ t.t1 * 32768 < (edgeShare t + 1) * (t.t1 + t.t2) :=
  tdiv_floor (a := t.t1 * 32768) (by omega) hsum

include h2

theorem edgeShare_mem : 0 ≤ edgeShare t ∧ edgeShare t ≤ 32768 := by
  obtain ⟨hfloor, -⟩ := edgeShare_floor h1 hsum
  refine ⟨tdiv_nonneg (a := t.t1 * 32768) (by omega) (by omega), ?_⟩
  nlinarith
end

theorem holdOffset_floor {gm : Int} (h : 0 ≤ gm) :
    holdOffset gm * 32768 ≤ 31291 * gm ∧ 31291 * gm < (holdOffset gm + 1) * 32768 :=
  tdiv_floor (a := 31291 * gm) (by omega) (by decide)

theorem holdOffset_mem {gm : Int} (h0 : 0 ≤ gm) (h1 : gm ≤ 17156) : 0 ≤ holdOffset gm ∧ holdOffset gm ≤ 16382 := by
  obtain ⟨hfloor, hceil⟩ := holdOffset_floor h0
  omega

theorem effectiveGamma_of_nonpos {gam : Int} (h : gam ≤ 0) : effectiveGamma gam = 0 := by
  simp only [effectiveGamma, clamp, Config.gammaMax]; omega

/-- Up to the offset the transform holds `T1` at 0 (R176). -/
theorem reshape_t1_of_share_le {t : Dwell} (hsum : t.t1 + t.t2 ≠ 0) {gam : Int}
    (h : edgeShare t ≤ holdOffset (effectiveGamma gam)) : (reshape t gam).t1 = 0 := by
  obtain ⟨ht1, -⟩ := reshape_nonzero hsum gam
  rw [ht1, max_eq_right (by omega), zero_mul, tdiv, Int.zero_tdiv]
  rfl

/-- Above the offset `T1` follows the line, capped at one period (R176). -/
theorem reshape_t1_of_offset_le {t : Dwell} (hsum : t.t1 + t.t2 ≠ 0) {gam : Int}
    (h : holdOffset (effectiveGamma gam) ≤ edgeShare t) :
    (reshape t gam).t1 =
      min (tdiv ((edgeShare t - holdOffset (effectiveGamma gam)) * 17157) (17157 - effectiveGamma gam)) 32768 := by
  obtain ⟨ht1, -⟩ := reshape_nonzero hsum gam
  rw [ht1, max_eq_left (by omega)]

/-- Without gamma the transform is the rescale to the edge. -/
theorem reshape_t1_of_nonpos {t : Dwell} (h1 : 0 ≤ t.t1) (h2 : 0 ≤ t.t2) (hsum : 0 < t.t1 + t.t2) {gam : Int}
    (hgam : gam ≤ 0) : (reshape t gam).t1 = edgeShare t := by
  obtain ⟨hshare0, hshare1⟩ := edgeShare_mem h1 h2 hsum
  have hgm := effectiveGamma_of_nonpos hgam
  have hoff : holdOffset (effectiveGamma gam) = 0 := by rw [hgm]; rfl
  rw [reshape_t1_of_offset_le hsum.ne' (by omega), hoff, hgm, sub_zero, sub_zero, tdiv,
    Int.mul_tdiv_cancel _ (by decide), min_eq_left hshare1]

/-- Settles O31: the share, gamma and offset are those of the model, each a floor; the offset separates the two branches. -/
theorem ovmMode2OnEdge : Obligations.OvmMode2OnEdge := by
  intro t gam h1 h2
  refine ⟨fun hzero => reshape_zero hzero gam, fun hsum => ?_⟩
  obtain ⟨hr1, hr2, -⟩ := reshape_inPeriod t gam
  obtain ⟨-, hedge⟩ := reshape_nonzero hsum.ne' gam
  obtain ⟨hgm0, hgm1⟩ := effectiveGamma_mem gam
  obtain ⟨hshare, hshare'⟩ := edgeShare_floor h1 hsum
  obtain ⟨hoff, hoff'⟩ := holdOffset_floor hgm0
  refine ⟨by omega, hr1, hr2, ?lo, ?hi, ⟨edgeShare t, effectiveGamma gam, holdOffset (effectiveGamma gam),
    hshare, hshare', rfl, hoff, hoff', reshape_t1_of_share_le hsum.ne', fun hlt => ?line⟩, fun hgam => ?rescaled⟩
  case lo => simp only [levels, Config.one]; omega
  case hi => simp only [levels, Config.one]; omega
  case line =>
    obtain ⟨hq, hq'⟩ := tdiv_floor (a := (edgeShare t - holdOffset (effectiveGamma gam)) * 17157)
      (b := 17157 - effectiveGamma gam) (by omega) (by omega)
    exact ⟨_, hq, hq', reshape_t1_of_offset_le hsum.ne' hlt.le⟩
  case rescaled =>
    rw [reshape_t1_of_nonpos h1 h2 hsum hgam]
    exact ⟨hshare, hshare'⟩

end Sys2Proof.Machine
end

section
/-! The pipeline as a whole (spec/43_svm_ovm.md R160): what each value is made from, and the ranges of R161. -/

namespace Sys2Proof.Machine

/-! ### What each value of the pipeline is made from -/

section
variable (c : Cfg) (alpha beta : Int)

theorem svmStep_vref : (svmStep c alpha beta).vref = magnitude alpha beta := rfl

theorem svmStep_regime : (svmStep c alpha beta).regime = classify c (svmStep c alpha beta).vref := rfl

theorem svmStep_gam :
    (svmStep c alpha beta).gam = gamma c (svmStep c alpha beta).vref (svmStep c alpha beta).regime := rfl

theorem svmStep_ac :
    (svmStep c alpha beta).ac = correct c (svmStep c alpha beta).vref (svmStep c alpha beta).regime alpha := rfl

theorem svmStep_bc :
    (svmStep c alpha beta).bc = correct c (svmStep c alpha beta).vref (svmStep c alpha beta).regime beta := rfl

theorem svmStep_axes : (svmStep c alpha beta).axes = project (svmStep c alpha beta).ac (svmStep c alpha beta).bc := rfl

theorem svmStep_sector : (svmStep c alpha beta).sector = sectorOf (svmStep c alpha beta).axes := rfl

theorem svmStep_raw :
    (svmStep c alpha beta).raw = rawDwell (svmStep c alpha beta).sector (svmStep c alpha beta).axes := rfl

theorem svmStep_dwell : (svmStep c alpha beta).dwell =
    redistribute (svmStep c alpha beta).regime (svmStep c alpha beta).raw (svmStep c alpha beta).gam := rfl

theorem svmStep_levels : (svmStep c alpha beta).levels = levels (svmStep c alpha beta).dwell := rfl

theorem svmStep_duties :
    (svmStep c alpha beta).duties = assign (svmStep c alpha beta).sector (svmStep c alpha beta).levels := rfl

end

@[simp] theorem redistribute_linear (t : Dwell) (gam : Int) : redistribute .linear t gam = rescale t := rfl
@[simp] theorem redistribute_error (t : Dwell) (gam : Int) : redistribute .error t gam = ⟨0, 0⟩ := rfl

/-- Settles O33: the correction, gamma and the redistribution are functions of the regime, the duties of the sector. -/
theorem svmPipeline : Obligations.SvmPipeline := by
  rintro c alpha beta r rfl
  have perRegime {g : Regime} (h : (svmStep c alpha beta).regime = g) :
      (svmStep c alpha beta).ac = correct c (svmStep c alpha beta).vref g alpha ∧
      (svmStep c alpha beta).bc = correct c (svmStep c alpha beta).vref g beta ∧
      (svmStep c alpha beta).gam = gamma c (svmStep c alpha beta).vref g ∧
      (svmStep c alpha beta).dwell = redistribute g (svmStep c alpha beta).raw (svmStep c alpha beta).gam := by
    rw [← h]
    exact ⟨svmStep_ac c alpha beta, svmStep_bc c alpha beta, svmStep_gam c alpha beta, svmStep_dwell c alpha beta⟩
  have perSector {g : Sector} (h : (svmStep c alpha beta).sector = g) :
      (svmStep c alpha beta).duties = assign g (svmStep c alpha beta).levels := by
    rw [svmStep_duties, h]
  exact ⟨svmStep_vref c alpha beta, svmStep_regime c alpha beta, perRegime, perRegime, perRegime, perRegime,
    svmStep_axes c alpha beta, svmStep_sector c alpha beta, svmStep_raw c alpha beta, svmStep_levels c alpha beta,
    perSector, perSector, perSector, perSector, perSector, perSector⟩

/-- Settles O34: with no rescale the dwell times are the raw ones. -/
theorem lineToLineLinear : Obligations.LineToLineLinear := by
  rintro c alpha beta r rfl hlinear hsum
  have hdwell : (svmStep c alpha.toInt beta.toInt).dwell = (svmStep c alpha.toInt beta.toInt).raw := by
    rw [svmStep_dwell, hlinear, redistribute_linear, rescale_of_le hsum]
  rw [svmStep_duties, svmStep_levels, hdwell]
  exact assign_levels_rawDwell_diff (project_x_eq_add _ _) _

/-! ### Ranges -/

/-- A quotient rounded toward zero is no larger than the quotient of the absolute values. -/
theorem abs_tdiv_le {a b k : Int} (hb : 0 < b) (h : |a| < (k + 1) * b) : |tdiv a b| ≤ k := by
  have habs : |tdiv a b| = tdiv |a| b := by
    rcases le_total 0 a with ha | ha
    · rw [abs_of_nonneg ha, abs_of_nonneg (tdiv_nonneg ha hb.le)]
    · have hneg := tdiv_nonneg (neg_nonneg.2 ha) hb.le
      rw [abs_of_nonpos ha, tdiv_neg, abs_of_nonpos (by rwa [tdiv_neg, neg_nonneg] at hneg)]
  obtain ⟨hfloor, -⟩ := tdiv_floor (abs_nonneg a) hb
  rw [habs]
  exact Int.lt_add_one_iff.1 (lt_of_mul_lt_mul_right (hfloor.trans_lt h) hb.le)

theorem abs_toS16_le (h : BitVec 16) : |toS16 h| ≤ 32768 := by
  obtain ⟨hlo, hhi⟩ := toS16_mem h
  rw [abs_le]
  omega

theorem abs_toS16_mul_gain_le (h : BitVec 16) (c : Cfg) (vref : Int) :
    |toS16 h * gain c vref| ≤ 32768 * 65535 := by
  obtain ⟨hg0, hg1⟩ := gain_mem c vref
  rw [abs_mul, abs_of_nonneg hg0]
  exact mul_le_mul (abs_toS16_le h) hg1 hg0 (by decide)

theorem abs_correct_le (h : BitVec 16) (c : Cfg) (vref : Int) (r : Regime) :
    |correct c vref r (toS16 h)| ≤ 65535 := by
  cases r with
  | linear => exact (abs_toS16_le h).trans (by decide)
  | ovmMode1 | ovmMode2 =>
    exact abs_tdiv_le (by decide) ((abs_toS16_mul_gain_le h c vref).trans_lt (by decide))
  | error => exact (abs_zero (α := Int)).trans_le (by decide)

theorem abs_axisProduct_le {bc : Int} (h : |bc| ≤ 65535) : |(-bc) * 18919| ≤ 65535 * 18919 := by
  rw [abs_mul, abs_neg]
  exact mul_le_mul_of_nonneg_right h (abs_nonneg _)

theorem abs_axisTerm_le {bc : Int} (h : |bc| ≤ 65535) : |axisTerm bc| ≤ 37837 :=
  abs_tdiv_le (by decide) ((abs_axisProduct_le h).trans_lt (by decide))

theorem abs_project_le {ac bc : Int} (ha : |ac| ≤ 65535) (hb : |bc| ≤ 65535) :
    |(project ac bc).x| ≤ 75674 ∧ |(project ac bc).y| ≤ 103372 ∧ |(project ac bc).z| ≤ 103372 := by
  have hn := abs_axisTerm_le hb
  rw [project_x, project_y, project_z]
  simp only [abs_le] at *
  omega

/-- The dwell terms of OVM_MODE_2 (R161, R176). -/
theorem reshape_terms_mem {t : Dwell} (h1 : 0 ≤ t.t1) (h2 : 0 ≤ t.t2) (hsum : 0 < t.t1 + t.t2) (gam : Int) :
    0 ≤ edgeShare t ∧ edgeShare t ≤ 32768 ∧ 0 ≤ effectiveGamma gam ∧ effectiveGamma gam ≤ 17156 ∧
    0 ≤ holdOffset (effectiveGamma gam) ∧ holdOffset (effectiveGamma gam) ≤ 16382 ∧
    1 ≤ 17157 - effectiveGamma gam ∧ 17157 - effectiveGamma gam ≤ 17157 ∧
    max (edgeShare t - holdOffset (effectiveGamma gam)) 0 * 17157 ≤ 32768 * 17157 := by
  obtain ⟨hshare0, hshare1⟩ := edgeShare_mem h1 h2 hsum
  obtain ⟨hgm0, hgm1⟩ := effectiveGamma_mem gam
  obtain ⟨hoff0, hoff1⟩ := holdOffset_mem hgm0 hgm1
  omega

/-- Dwell times within a period keep the levels in order, and their outer two symmetric about the center (R177). -/
theorem levels_ordered {t : Dwell} (h : t.InPeriod) :
    0 ≤ (levels t).lo ∧ (levels t).lo ≤ (levels t).mid ∧ (levels t).mid ≤ (levels t).hi ∧ (levels t).hi ≤ 65536 ∧
    (levels t).lo + (levels t).hi = 65536 := by
  obtain ⟨h1, h2, hsum⟩ := h
  simp only [levels, Config.one]
  omega

/-- The products and counts of the final scaling (R181). -/
theorem scale_ranges {d : Int} (h : DutyLegal d) (period : BitVec 16) :
    0 ≤ period.toNat * d ∧ period.toNat * d < 4294967296 ∧
    0 ≤ scaleDuty period.toNat d ∧ scaleDuty period.toNat d ≤ period.toNat := by
  have hcount := scaleDuty_mem (period := period.toNat) h
  obtain ⟨h0, h1⟩ := h
  have hperiod := period.isLt
  have hprod : (period.toNat : Int) * d ≤ 65535 * 65536 := mul_le_mul (by omega) h1 h0 (by decide)
  exact ⟨by positivity, by omega, hcount⟩

/-- Settles O32: the ranges of the steps, each from those of the steps before it. -/
theorem svmRanges : Obligations.SvmRanges := by
  intro c alpha beta hc
  refine ⟨svmStep c alpha.toInt beta.toInt, rfl, ?_⟩
  obtain ⟨-, hsqa⟩ := toS16_sq_le alpha
  obtain ⟨-, hsqb⟩ := toS16_sq_le beta
  obtain ⟨hv0, hv1⟩ := magnitude_mem alpha beta
  obtain ⟨hgain0, hgain1⟩ := gain_mem c (svmStep c alpha.toInt beta.toInt).vref
  obtain ⟨hgam0, hgam1⟩ := gamma_mem c (svmStep c alpha.toInt beta.toInt).vref (svmStep c alpha.toInt beta.toInt).regime
  have hac : |(svmStep c alpha.toInt beta.toInt).ac| ≤ 65535 := abs_correct_le alpha c _ _
  have hbc : |(svmStep c alpha.toInt beta.toInt).bc| ≤ 65535 := abs_correct_le beta c _ _
  obtain ⟨hx, hy, hz⟩ := abs_project_le hac hbc
  rw [← svmStep_axes] at hx hy hz
  obtain ⟨ht1, ht2⟩ : 0 ≤ (svmStep c alpha.toInt beta.toInt).raw.t1 ∧ 0 ≤ (svmStep c alpha.toInt beta.toInt).raw.t2 :=
    rawDwell_nonneg _ _
  obtain ⟨ht1', ht2'⟩ := rawDwell_le (hx.trans (by decide)) hy hz (svmStep c alpha.toInt beta.toInt).sector
  rw [← svmStep_raw] at ht1' ht2'
  have hdwell := svmStep_dwell_inPeriod c alpha.toInt beta.toInt
  obtain ⟨hlo, hmid, hhi, hfull, hcenter⟩ := levels_ordered hdwell
  obtain ⟨hda, hdb, hdc⟩ := svmStep_duties_legal c alpha.toInt beta.toInt
  refine ⟨(add_le_add hsqa hsqb).trans (by decide), hv0, hv1, fun hregime => ?indices, hgain0, hgain1, hgam0, hgam1,
    abs_toS16_mul_gain_le alpha c _, abs_toS16_mul_gain_le beta c _, hac, hbc,
    abs_axisProduct_le hbc, abs_axisTerm_le hbc, hx, hy, hz, ht1, ht1', ht2, ht2', by omega, by omega,
    fun hsum => reshape_terms_mem ht1 ht2 hsum _, hdwell.t1_nonneg, hdwell.t2_nonneg, hdwell.sum_le,
    hlo, hmid, hhi, hfull, hcenter, fun d hd => ?duty⟩
  case indices =>
    obtain ⟨hstart, hend⟩ := vref_mem_of_overmodulation hc hregime
    obtain ⟨hi0, hi1⟩ := gainIndex_mem hc hstart hend
    exact ⟨hi0, hi1, gammaIndex_mem hc hend⟩
  case duty =>
    have hlegal : DutyLegal d := by
      simp only [List.mem_cons, List.not_mem_nil, or_false] at hd
      obtain rfl | rfl | rfl := hd <;> assumption
    exact ⟨hlegal.1, hlegal.2, scale_ranges hlegal⟩

end Sys2Proof.Machine
end

section
/-! `SVM.COMPUTE` on the state (spec/43_svm_ovm.md sections 1 and 5): what an accepted command writes, the center value of the
zero vector, the refusal outside `MODE = 2`. -/

namespace Sys2Proof.Machine

/-! ### The stored results -/

section
variable (r : SvmStep) (s : State)

@[simp] theorem svmFinish_host : (svmFinish r s).host = s.host := rfl
@[simp] theorem svmFinish_hall : (svmFinish r s).hall = s.hall := rfl
@[simp] theorem svmFinish_svm : (svmFinish r s).svm = svmResults r s.svm := rfl
@[simp] theorem svmFinish_out : (svmFinish r s).out = scaledBank s.host.pwmPeriod r.duties := rfl
@[simp] theorem svmFinish_resp : (svmFinish r s).resp = some ⟨0, svmResponse r⟩ := rfl
@[simp] theorem svmFinish_status :
    (svmFinish r s).status = { s.status with ovmErr := s.status.ovmErr || decide (r.regime = .error) } := rfl

/-- An accepted command as one update of the state. -/
theorem svmFinish_eq : svmFinish r s = { s with
    svm := (svmFinish r s).svm, out := (svmFinish r s).out, stg := (svmFinish r s).out
    status.ovmErr := s.status.ovmErr || decide (r.regime = .error)
    resp := some ⟨0, svmResponse r⟩
    events := s.events ++ [.commit] } := rfl
end

/-- The count of over-range commands saturates (R174, R182). -/
theorem svmResults_ovmErrCnt_toNat (r : SvmStep) (v : SvmRegs) : (svmResults r v).ovmErrCnt.toNat =
    if r.regime = .error then min (v.ovmErrCnt.toNat + 1) 65535 else v.ovmErrCnt.toNat := by
  rw [svmResults, apply_ite BitVec.toNat, satU16Inc_toNat]

/-- A duty fits its 17-bit register. -/
theorem toNat_ofInt_duty {d : Int} (h : DutyLegal d) : ((BitVec.ofInt 17 d).toNat : Int) = d := by
  obtain ⟨h0, h1⟩ := h
  exact toNat_ofInt_of_fits h0 (by omega)

/-- A magnitude fits its 16-bit register. -/
theorem toNat_ofInt_magnitude (alpha beta : BitVec 16) :
    ((BitVec.ofInt 16 (magnitude (toS16 alpha) (toS16 beta))).toNat : Int) = magnitude (toS16 alpha) (toS16 beta) := by
  obtain ⟨h0, h1⟩ := magnitude_mem alpha beta
  exact toNat_ofInt_of_fits h0 (by omega)

/-! ### The compare counts -/

/-- The duty of one phase. -/
def Duties.duty (d : Duties) : Phase → Int
  | .a => d.a
  | .b => d.b
  | .c => d.c

theorem Duties.Legal.duty {d : Duties} (h : d.Legal) (p : Phase) : DutyLegal (d.duty p) := by
  cases p with
  | a => exact h.a
  | b => exact h.b
  | c => exact h.c

/-- A compare count fits its register, the period bounding it (R181). -/
theorem scaledBank_duty_toNat (period : BitVec 16) {d : Duties} (h : d.Legal) (p : Phase) :
    (((scaledBank period d).duty p).toNat : Int) = scaleDuty period.toNat (d.duty p) := by
  obtain ⟨h0, h1⟩ := scaleDuty_mem (period := period.toNat) (h.duty p)
  have hperiod := period.isLt
  have hduty : (scaledBank period d).duty p = BitVec.ofInt 16 (scaleDuty period.toNat (d.duty p)) := by cases p <;> rfl
  rw [hduty]
  exact toNat_ofInt_of_fits h0 (by omega)

/-- Both factors of the scaling are non-negative, so the truncation is the floor. -/
theorem scaledBank_duty_floor (period : BitVec 16) {d : Duties} (h : d.Legal) (p : Phase) :
    (((scaledBank period d).duty p).toNat : Int) * 65536 ≤ period.toNat * d.duty p ∧
    period.toNat * d.duty p < (((scaledBank period d).duty p).toNat + 1 : Int) * 65536 := by
  rw [scaledBank_duty_toNat period h p]
  exact tdiv_floor (mul_nonneg (Int.natCast_nonneg _) (h.duty p).1) (by decide)

/-! ### The operation -/

theorem exec_svmCompute {s : State} (hmode : s.host.mode = 2) (alpha beta : BitVec 16) :
    exec (.svmCompute alpha beta) s = .next (svmFinish (svmStep machineCfg alpha.toInt beta.toInt) s) :=
  congrArg Host.Outcome.next (svmCompute_ok machineCfg alpha beta hmode)

/-- Settles O36: the mode check refuses with the records of the error only. -/
theorem svmWrongModeRefused : Obligations.SvmWrongModeRefused := fun s alpha beta hmode =>
  ⟨_, congrArg Host.Outcome.next (svmCompute_wrongMode machineCfg alpha beta hmode),
    raiseOpError_opErrorOnly 0x20 .wrongMode s⟩

/-- Settles O35: every stored value is in the range of its field, so it is stored whole. -/
theorem svmResultsWritten : Obligations.SvmResultsWritten := by
  intro s alpha beta hmode
  have hlegal := svmStep_duties_legal machineCfg alpha.toInt beta.toInt
  refine ⟨svmStep machineCfg alpha.toInt beta.toInt, _, rfl, exec_svmCompute hmode alpha beta, rfl, rfl,
    toNat_ofInt_magnitude alpha beta, toNat_ofInt_duty hlegal.a, toNat_ofInt_duty hlegal.b, toNat_ofInt_duty hlegal.c,
    fun p d hd => ?counts, rfl, svmResults_ovmErrCnt_toNat _ _, svmFinish_eq _ s⟩
  have hphase : d = (svmStep machineCfg alpha.toInt beta.toInt).duties.duty p := by
    simp only [List.mem_cons, Prod.mk.injEq, List.not_mem_nil, or_false] at hd
    obtain ⟨rfl, rfl⟩ | ⟨rfl, rfl⟩ | ⟨rfl, rfl⟩ := hd <;> rfl
  rw [hphase]
  exact scaledBank_duty_floor s.host.pwmPeriod hlegal p

/-- Settles O39: of the old state the results take the period, and their count the old count. -/
theorem svmIsPure : Obligations.SvmIsPure := by
  intro s₁ s₂ alpha beta hmode₁ hmode₂ hperiod
  refine ⟨_, _, exec_svmCompute hmode₁ alpha beta, exec_svmCompute hmode₂ alpha beta, ?_, rfl, rfl⟩
  rw [svmFinish_out, svmFinish_out, hperiod]

/-! ### The center value -/

/-- Three equal duties at half of the full scale (R175). -/
def Duties.center : Duties := ⟨32768, 32768, 32768⟩

@[simp] theorem Duties.center_duty (p : Phase) : Duties.center.duty p = 32768 := by cases p <;> rfl

theorem Duties.center_legal : Duties.center.Legal := by
  constructor <;> exact ⟨by decide, by decide⟩

theorem scaledBank_center_duty (period : BitVec 16) (p : Phase) :
    ((scaledBank period Duties.center).duty p).toNat = period.toNat / 2 := by
  obtain ⟨hfloor, hceil⟩ := scaledBank_duty_floor period Duties.center_legal p
  rw [Duties.center_duty] at hfloor hceil
  omega

/-- The zero vector lies in sector 2 (R169) and has zero dwell times before the redistribution. -/
theorem svmStep_zero_vector {c : Cfg} {alpha beta : Int} (hac : (svmStep c alpha beta).ac = 0)
    (hbc : (svmStep c alpha beta).bc = 0) :
    (svmStep c alpha beta).sector = .s2 ∧ (svmStep c alpha beta).raw = ⟨0, 0⟩ := by
  have haxes : (svmStep c alpha beta).axes = ⟨0, 0, 0⟩ := by rw [svmStep_axes, hac, hbc]; rfl
  rw [svmStep_raw, svmStep_sector, haxes]
  exact ⟨rfl, rfl⟩

/-- With zero dwell times every level is the center, whichever the sector. -/
theorem svmStep_duties_of_zero_dwell {c : Cfg} {alpha beta : Int} (h : (svmStep c alpha beta).dwell = ⟨0, 0⟩) :
    (svmStep c alpha beta).duties = Duties.center := by
  rw [svmStep_duties, svmStep_levels, h]
  cases (svmStep c alpha beta).sector <;> rfl

/-- The zero command is LINEAR because the first threshold is positive (R7 item a). -/
theorem svmStep_zero_command {c : Cfg} (hc : Config.WF c) :
    (svmStep c 0 0).regime = .linear ∧ (svmStep c 0 0).sector = .s2 ∧ (svmStep c 0 0).duties = Duties.center := by
  obtain ⟨hlinear, -⟩ := regimeIntervals c (magnitude 0 0) hc
  obtain ⟨⟨hstart, -⟩, -⟩ := hc
  have hregime : (svmStep c 0 0).regime = .linear := hlinear.2 hstart
  have hac : (svmStep c 0 0).ac = 0 := by rw [svmStep_ac, hregime, correct_linear]
  have hbc : (svmStep c 0 0).bc = 0 := by rw [svmStep_bc, hregime, correct_linear]
  obtain ⟨hsector, hraw⟩ := svmStep_zero_vector hac hbc
  refine ⟨hregime, hsector, svmStep_duties_of_zero_dwell ?_⟩
  rw [svmStep_dwell, hregime, hraw, redistribute_linear, rescale_of_le (by decide)]

/-- An over-range command is replaced by the zero vector (R174). -/
theorem svmStep_over_range {c : Cfg} {alpha beta : Int} (h : (svmStep c alpha beta).regime = .error) :
    (svmStep c alpha beta).sector = .s2 ∧ (svmStep c alpha beta).duties = Duties.center := by
  have hac : (svmStep c alpha beta).ac = 0 := by rw [svmStep_ac, h, correct_error]
  have hbc : (svmStep c alpha beta).bc = 0 := by rw [svmStep_bc, h, correct_error]
  obtain ⟨hsector, -⟩ := svmStep_zero_vector hac hbc
  exact ⟨hsector, svmStep_duties_of_zero_dwell (by rw [svmStep_dwell, h, redistribute_error])⟩

/-- The registers of a step whose duties are the center, in sector 2. -/
theorem svmResults_center {r : SvmStep} (hsector : r.sector = .s2) (hduties : r.duties = Duties.center) (v : SvmRegs) :
    (svmResults r v).dutyA.toNat = 32768 ∧ (svmResults r v).dutyB.toNat = 32768 ∧
    (svmResults r v).dutyC.toNat = 32768 ∧ (svmResults r v).sector = 2 := by
  simp only [svmResults, hsector, hduties]
  exact ⟨rfl, rfl, rfl, rfl⟩

/-- Settles O37: the zero command is the zero vector in LINEAR, under every well-formed record. -/
theorem zeroCommandIsCenter : Obligations.ZeroCommandIsCenter := by
  intro s hmode
  obtain ⟨hregime, hsector, hduties⟩ := svmStep_zero_command machineCfg_wf
  obtain ⟨hA, hB, hC, hsec⟩ := svmResults_center hsector hduties s.svm
  refine ⟨svmFinish (svmStep machineCfg 0 0) s, exec_svmCompute hmode 0 0, rfl, ?regime, hsec, hA, hB, hC,
    fun p => ?count, ?resp⟩
  case regime => rw [svmFinish_svm, svmResults, hregime]; rfl
  case count => rw [svmFinish_out, hduties, scaledBank_center_duty]
  case resp => rw [svmFinish_resp, svmResponse, hregime, hsector]; rfl

/-- Settles O38: the zero vector, the saturating count, and the frame of an accepted command. -/
theorem errorRegimeIsCenter : Obligations.ErrorRegimeIsCenter := by
  rintro c s t alpha beta - hmode hclass rfl
  have hregime : (svmStep c alpha.toInt beta.toInt).regime = .error := hclass
  obtain ⟨hsector, hduties⟩ := svmStep_over_range hregime
  obtain ⟨hA, hB, hC, hsec⟩ := svmResults_center hsector hduties s.svm
  have hcnt := svmResults_ovmErrCnt_toNat (svmStep c alpha.toInt beta.toInt) s.svm
  rw [if_pos hregime] at hcnt
  rw [svmCompute_ok c alpha beta hmode]
  refine ⟨hA, hB, hC, hsec, ?regime, ?flag, hcnt, svmFinish_host _ s, svmFinish_hall _ s, ?_, ?_⟩
  case regime => exact congrArg regimeCode hregime
  case flag => rw [svmFinish_status]; exact Bool.or_eq_true_iff.2 (.inr (decide_eq_true hregime))
  all_goals rw [svmFinish_status]

end Sys2Proof.Machine
end

section
/-! Register access (spec/44_register_access.md): `NOP`, every read in full, the two guarded writes, the refused writes. -/

namespace Sys2Proof.Machine

/-! ### `NOP` -/

/-- Settles O13: `NOP` has one next state, and its word is of format N. -/
theorem nopRule : Obligations.NopRule :=
  ⟨fun _ => rfl, Sys2Proof.decode_formatN (by decide) fun _ => rfl⟩

/-! ### The packed words of `RD.REG` (spec/44_register_access.md R192) -/

/-- A flag put below a word is bit 0. -/
theorem getLsbD_append_ofBool_zero {n : Nat} (x : BitVec n) (b : Bool) : (x ++ BitVec.ofBool b).getLsbD 0 = b := by
  rw [BitVec.getLsbD_append, if_pos Nat.one_pos, BitVec.getLsbD_ofBool]
  simp

/-- With a flag put below it, a word has each of its bits one place higher. -/
theorem getLsbD_append_ofBool_succ {n : Nat} (x : BitVec n) (b : Bool) (k : Nat) :
    (x ++ BitVec.ofBool b).getLsbD (k + 1) = x.getLsbD k := by
  simp [BitVec.getLsbD_append]

/-- `STATUS` has its flags at bits 0 to 6 and zeros above (spec/10_state.md R39): peel one flag after another. -/
theorem statusWord_getLsbD (f : Status) (k : Nat) :
    (statusWord f).getLsbD k =
      [f.hallEn, f.faultStall, f.invHall, f.ovmErr, f.opErr, f.pidOutSat, f.pidIntSat].getD k false := by
  match k with
  | 0 | 1 | 2 | 3 | 4 | 5 | 6 =>
    simp only [statusWord, getLsbD_append_ofBool_zero, getLsbD_append_ofBool_succ, List.getD_cons_zero,
      List.getD_cons_succ]
  | k + 7 => simp only [statusWord, getLsbD_append_ofBool_succ, BitVec.getLsbD_zero, List.getD_cons_succ, List.getD_nil]

/-- A word is its high part times the weight of its low part's width, plus its low part. -/
theorem toNat_append_eq_add {n m : Nat} (x : BitVec n) (y : BitVec m) : (x ++ y).toNat = x.toNat * 2 ^ m + y.toNat := by
  rw [BitVec.toNat_append, ← Nat.shiftLeft_add_eq_or_of_lt y.isLt, Nat.shiftLeft_eq]

theorem hallStateWord_toNat (h : HallRegs) : (hallStateWord h).toNat = h.hallLast.toNat * 8 + h.step.toNat := by
  simp only [hallStateWord, toNat_append_eq_add, BitVec.toNat_zero]
  omega

theorem lastErrWord_toNat (e : LastErr) : (lastErrWord e).toNat = e.opcode.toNat * 256 + e.code.toNat := by
  simp only [lastErrWord, toNat_append_eq_add, BitVec.toNat_zero]
  omega

theorem svmStateWord_toNat (v : SvmRegs) :
    (svmStateWord v).toNat = v.vref.toNat * 65536 + v.regime.toNat * 8 + v.sector.toNat := by
  simp only [svmStateWord, toNat_append_eq_add, BitVec.toNat_zero]
  omega

/-- A read of a mapped register answers its word and changes nothing else. -/
theorem exec_rdReg (r : Reg) (s : State) : exec (.rdReg (regNumber r)) s = .next (respond (readReg r s) s) :=
  execRdReg_mapped (regOfNumber_regNumber r) s

/-- Settles O40: the four packed words field by field, the unsigned registers zero-extended, the s32 registers as stored. -/
theorem readLayout : Obligations.ReadLayout := by
  intro s
  refine ⟨fun r => exec_rdReg r s, statusWord_getLsbD s.status, hallStateWord_toNat s.hall, lastErrWord_toNat s.lastErr,
    svmStateWord_toNat s.svm, ?unsigned, ?s32⟩
  case unsigned =>
    have zeroExtended {n : Nat} (hn : n ≤ 32) (x : BitVec n) : (x.setWidth 32).toNat = x.toNat :=
      BitVec.toNat_setWidth_of_le hn
    intro row hrow
    fin_cases hrow <;> exact zeroExtended (by decide) _
  case s32 =>
    intro row hrow
    fin_cases hrow <;> rfl

/-! ### The checks of a write (spec/44_register_access.md R191) -/

/-- A write that names a mapped register executes the checked write of it. -/
theorem exec_wrReg (r : Reg) (val : Word) (s : State) :
    exec (.wrReg (regNumber r) val) s = .next (writeReg (wrOpcode (regNumber r)) r val s) :=
  execWrReg_mapped (regOfNumber_regNumber r) val s

theorem writeReg_readOnly {r : Reg} (hw : regWritable r = false) (opc : Opcode) (val : Word) (s : State) :
    writeReg opc r val s = raiseOpError opc .badRegister s := by
  rw [writeReg, if_pos (by simp [hw])]

theorem writeReg_illegalValue {r : Reg} {val : Word} (hw : regWritable r = true) (hval : regValueLegal r val = false)
    (opc : Opcode) (s : State) : writeReg opc r val s = raiseOpError opc .illegalOperand s := by
  rw [writeReg, if_neg (by simp [hw]), if_pos (by simp [hval])]

theorem writeReg_mode_armed {val : Word} {s : State} (hval : regValueLegal .mode val = true)
    (hen : s.status.hallEn = true) (opc : Opcode) : writeReg opc .mode val s = raiseOpError opc .wrongMode s := by
  rw [writeReg, if_neg (by decide), if_neg (by simp [hval]), if_pos ⟨rfl, hen⟩]

/-- A write whose checks end in an error changes its records only (spec/60_exceptions.md R211). -/
theorem exec_wrReg_opErrorOnly {r : Reg} {val : Word} {s : State} {e : OpErr}
    (h : writeReg (wrOpcode (regNumber r)) r val s = raiseOpError (wrOpcode (regNumber r)) e s) :
    ∃ t, exec (.wrReg (regNumber r) val) s = .next t ∧ OpErrorOnly (wrOpcode (regNumber r)) (opErrCode e) s t :=
  ⟨_, exec_wrReg r val s, h ▸ raiseOpError_opErrorOnly _ e s⟩

/-- A value with a bit above the register's width is illegal. -/
theorem regValueLegal_of_not_fits {r : Reg} {n : Nat} {val : Word} (hn : regUnsignedWidth r = some n)
    (hval : 2 ^ n ≤ val.toNat) : regValueLegal r val = false := by
  simp [regValueLegal, hn, hval]

/-- Settles O44: the first list is of registers no write reaches, the second gives each bound as that of the width. -/
theorem refusedWrites : Obligations.RefusedWrites := by
  refine ⟨fun r hr s val => ?readOnly, fun row hrow s val hval => ?unfit⟩
  case readOnly =>
    have hw : regWritable r = false := by revert r; decide
    exact exec_wrReg_opErrorOnly (writeReg_readOnly hw _ val s)
  case unfit =>
    obtain ⟨hw, n, hn, hbound⟩ : regWritable row.1 = true ∧ ∃ n ∈ regUnsignedWidth row.1, row.2 = 2 ^ n := by
      clear hval; revert row; decide
    have hill : regValueLegal row.1 val = false := regValueLegal_of_not_fits hn (hbound ▸ hval)
    exact exec_wrReg_opErrorOnly (writeReg_illegalValue hw hill _ s)

/-! ### `MODE` (spec/44_register_access.md R193) -/

/-- `MODE` refuses 3, which its width admits, and every wider value. -/
theorem regValueLegal_mode_of_ge {val : Word} (h : 3 ≤ val.toNat) : regValueLegal .mode val = false := by
  obtain hthree | hwide : val.toNat = 3 ∨ 2 ^ 2 ≤ val.toNat := by omega
  · obtain rfl : val = 3 := BitVec.eq_of_toNat_eq hthree
    decide
  · exact regValueLegal_of_not_fits rfl hwide

/-- Settles O42: the accepted write is that of `CFG.MODE`, and each refusal is the first check that fails. -/
theorem modeWriteRule : Obligations.ModeWriteRule := by
  intro s val
  refine ⟨fun hval hdis => ?accepted, fun hval hen => ?armed, fun hval => ?illegal⟩
  case accepted => exact exec_cfgMode_disarmed hval hdis
  case armed => exact exec_wrReg_opErrorOnly (r := .mode) (writeReg_mode_armed (regValueLegal_mode_of_lt hval) hen _)
  case illegal => exact exec_wrReg_opErrorOnly (r := .mode) (writeReg_illegalValue rfl (regValueLegal_mode_of_ge hval) _ s)

/-! ### `STATUS` (spec/44_register_access.md R204) -/

/-- Write-one-to-clear, flag by flag. -/
theorem clearFlags_eq (val : Word) (f : Status) : clearFlags val f = { f with
    invHall := if val.getLsbD 2 then false else f.invHall
    ovmErr := if val.getLsbD 3 then false else f.ovmErr
    opErr := if val.getLsbD 4 then false else f.opErr } := by
  have hflag (b flag : Bool) : (flag && !b) = if b then false else flag := by cases b <;> simp
  simp only [clearFlags, hflag]

/-- Settles O43: the write is that of `CLR.FLAGS`; only `HALL.ARM` clears the fault flag, by `armRule`. -/
theorem statusWriteOneToClear : Obligations.StatusWriteOneToClear := by
  refine ⟨fun s val => ?write, fun i s t hexec hfault hclear => ?onlyArm⟩
  case write =>
    rw [← clearFlags_eq]
    exact exec_clrFlags val s
  case onlyArm =>
    obtain ⟨-, -, -, keeps⟩ := armRule
    by_contra hi
    have hkept := keeps i s t hexec hfault hi
    exact Bool.false_ne_true (hclear.symm.trans hkept)

end Sys2Proof.Machine
end

section
/-! One step on an offered operation: it is refused, with the error records and nothing else, or answers an OK response
(spec/60_exceptions.md R211, R234, spec/70_reset_and_hazards.md R257). -/

namespace Sys2Proof.Machine

/-- Settles O10: of the cases of a step, only the idle one has an empty stream. -/
theorem idleStepHolds : Obligations.IdleStepHolds := by
  intro s hidle
  obtain ⟨-, heq⟩ | ⟨op, rest, i, hstream, -⟩ | ⟨op, rest, e, hstream, -⟩ := step_cases s
  · exact heq
  · cases hidle.symm.trans hstream
  · cases hidle.symm.trans hstream

/-- The next state `t` of an operation with opcode byte `opc` executed in `s`, by its response: the records of an error and
nothing else, or an OK response. -/
def Answered (opc : Opcode) (s t : State) : Prop :=
  (∃ e, t = raiseOpError opc e s) ∨ ∃ data, t.resp = some ⟨0, data⟩

theorem Answered.resp {opc : Opcode} {s t : State} (h : Answered opc s t) : ∃ r, t.resp = some r := by
  obtain ⟨e, rfl⟩ | ⟨data, hresp⟩ := h
  · exact ⟨_, raiseOpError_resp opc e s⟩
  · exact ⟨_, hresp⟩

/-- A response that carries an error is a refusal's (spec/60_exceptions.md R211). -/
theorem Answered.opErrorOnly {opc : Opcode} {s t : State} (h : Answered opc s t) {r : Response} (hr : t.resp = some r)
    (herr : r.err ≠ 0) : OpErrorOnly opc r.err s t := by
  obtain ⟨e, rfl⟩ | ⟨data, hok⟩ := h
  · cases hr
    exact raiseOpError_opErrorOnly opc e s
  · cases hok.symm.trans hr
    exact absurd rfl herr

/-- Every effect but the refusal ends in an OK response. -/
theorem Effect.toAnswered {i : Instr} {s t : State} (heffect : Effect i s t) : Answered i.opcode s t := by
  cases heffect with
  | refused e => exact .inl ⟨e, rfl⟩
  | answered | recorded | commutated | counted | stalled | rearmed | stopped | regulated | pidCleared | modulated
  | modeWritten | written => exact .inr ⟨_, rfl⟩

/-- A word that decodes has the opcode byte of its operation. -/
theorem opcodeOf_of_decode {w : OpWord} {i : Instr} (h : decode w = .ok i) : opcodeOf w = i.opcode := by
  rw [← opWord_fields w] at h
  exact (decode_opWord_eq_ok h).1

/-- An offered word gives a next state (spec/70_reset_and_hazards.md R257), and an error names the word's opcode byte,
whether the decoder or the operation raises it. -/
theorem step_answered {s : State} {op : Issue} {rest : List Issue} (hstream : s.stream = op :: rest) :
    ∃ t, step s = .next t ∧ Answered (opcodeOf op.word) (advance op rest s) t := by
  obtain ⟨i, hdecode⟩ | ⟨e, hdecode⟩ := decode_cases op.word
  · obtain ⟨t, hexec, heffect⟩ := exec_effect i (advance op rest s)
    exact ⟨t, (step_eq_exec_of_decode hstream hdecode).trans hexec, opcodeOf_of_decode hdecode ▸ heffect.toAnswered⟩
  · obtain ⟨t, hstep, hrecords⟩ := step_opErrorOnly_of_decode hstream hdecode
    exact ⟨t, hstep, .inl ⟨opErrOfDecode e, hrecords⟩⟩

/-- Settles O12: the step's next state is an answer to the offered word, and this one carries an error. -/
theorem refusalIsPrecise : Obligations.RefusalIsPrecise := by
  intro s t op rest r hstream hstep hresp herr
  obtain ⟨t', hstep', hanswered⟩ := step_answered hstream
  cases hstep'.symm.trans hstep
  exact hanswered.opErrorOnly hresp herr

end Sys2Proof.Machine
end

section
/-! The platform layer around the core (spec/60_exceptions.md R222 to R226, R232, spec/10_state.md R71, R72; log entry 8). -/

namespace Sys2Proof.Machine

/-! ### Sources and latches -/

theorem sourceEnabled_pwmTick_iff (s : State) : sourceEnabled .pwmTick s = true ↔ s.host.mode = 2 := beq_iff_eq

theorem sourceEnabled_pidTick (s : State) : sourceEnabled .pidTick s = true := rfl

theorem sourceEnabled_clearOutputs (src : Source) (s : State) : sourceEnabled src (clearOutputs s) = sourceEnabled src s := by
  cases src <;> rfl

theorem pending_holdClear (src : Source) (s : State) (l : Latches) :
    pending src (holdClear s l) = (pending src l && sourceEnabled src s) := by
  cases src <;> rfl

theorem pending_clearLatch (src other : Source) (l : Latches) :
    pending other (clearLatch src l) = (other != src && pending other l) := by
  cases src <;> cases other <;> rfl

theorem pending_clearLatches (src : Source) : pending src clearLatches = false := by
  cases src <;> rfl

/-- One clock sample, for every source at once (R71, R222): an event joins what was pending, a mask clears both. -/
theorem pending_observe_iff (src : Source) (before now : Pins) (s : State) (l : Latches) :
    pending src (observe before now s l) = true ↔
      sourceEnabled src s = true ∧ (pending src l = true ∨ sourceEvent src before now = true) := by
  have hlatch : pending src (observe before now s l) =
      ((pending src l || sourceEvent src before now) && sourceEnabled src s) := by cases src <;> rfl
  rw [hlatch, Bool.and_eq_true, Bool.or_eq_true, and_comm]

theorem sourceEvent_hall_iff (before now : Pins) : sourceEvent .hall before now = true ↔ before.hallIn ≠ now.hallIn :=
  bne_iff_ne

/-- The rising edge of a tick, between two samples of it. -/
theorem rising_edge_iff (before now : Bool) : (!before && now) = true ↔ before = false ∧ now = true := by
  rw [Bool.and_eq_true, Bool.not_eq_true']

/-- Settles O55: the four latches are those of `pending_observe_iff`, with each source's event and mask. -/
theorem edgesSetLatches : Obligations.EdgesSetLatches := by
  intro p now
  refine ⟨_, rfl, rfl, rfl, ?hall, ?stallTick, ?pwmTick, ?pidTick⟩
  case hall => rw [← sourceEvent_hall_iff]; exact pending_observe_iff .hall _ _ _ _
  case stallTick => rw [← rising_edge_iff]; exact pending_observe_iff .stallTick _ _ _ _
  case pwmTick => rw [← rising_edge_iff, ← sourceEnabled_pwmTick_iff]; exact pending_observe_iff .pwmTick _ _ _ _
  case pidTick =>
    rw [← rising_edge_iff]
    exact (pending_observe_iff .pidTick _ _ _ _).trans (and_iff_right (sourceEnabled_pidTick _))

/-! ### Issuing an operation -/

/-- The core with an issued word as the one operation offered, at the present level of the Hall pins. -/
def Platform.offering (p : Platform) (w : OpWord) : State := { p.core with stream := [⟨w, p.pins.hallIn⟩] }

/-- An issue succeeds exactly where the core answers a next state; that state masks the latches. -/
theorem issueOp_eq_some_iff {w : OpWord} {p q : Platform} {l : Latches} {hostOp : Bool} :
    issueOp w p l hostOp = some q ↔
      ∃ s, step (p.offering w) = .next s ∧ q = { p with core := s, latches := holdClear s l, hostOp := hostOp } := by
  rw [issueOp, Platform.offering]
  constructor
  · intro h
    split at h
    · next s hstep => cases h; exact ⟨s, hstep, rfl⟩
    · cases h
    · cases h
  · rintro ⟨s, hstep, rfl⟩
    rw [hstep]

/-- Whatever was issued, no latch of a masked source is left set (R223, R224, R226). -/
theorem sourceEnabled_of_issueOp {w : OpWord} {p q : Platform} {l : Latches} {hostOp : Bool} {src : Source}
    (hissue : issueOp w p l hostOp = some q) (hpending : pending src q.latches = true) : sourceEnabled src q.core = true := by
  obtain ⟨s, -, rfl⟩ := issueOp_eq_some_iff.1 hissue
  rw [pending_holdClear, Bool.and_eq_true] at hpending
  exact hpending.2

theorem platformStep_serve_eq_some_iff {src : Source} {p q : Platform} :
    platformStep (.serve src) p = some q ↔
      (sourceEnabled src p.core = true ∧ pending src p.latches = true) ∧
        issueOp (encode (sourceOp src p.pins)) p (clearLatch src p.latches) false = some q := by
  rw [platformStep, Option.ite_none_right_eq_some, Bool.and_eq_true]

/-- Settles O57: every input but reset ends by masking the latches in the core's next state; reset clears them. -/
theorem maskedLatchesAreClear : Obligations.MaskedLatchesAreClear := by
  intro inp p q hstep src hpending
  cases inp with
  | clock now =>
    cases hstep
    rw [sourceEnabled_clearOutputs]
    exact ((pending_observe_iff _ _ _ _ _).1 hpending).1
  | serve source => exact sourceEnabled_of_issueOp (platformStep_serve_eq_some_iff.1 hstep).2 hpending
  | hostOp w => exact sourceEnabled_of_issueOp hstep hpending
  | reset =>
    cases hstep
    cases (pending_clearLatches src).symm.trans hpending

/-! ### The ports -/

theorem Platform.ports_respValid_frontEnd {p : Platform} (h : p.hostOp = false) : p.ports.respValid = false := by
  rw [Platform.ports, h, Bool.and_false]

/-- The ports after an operation of the operation port (R232). -/
theorem Platform.ports_hostOp {p : Platform} {r : Response} (hhost : p.hostOp = true) (hresp : p.core.resp = some r) :
    p.ports = {
      pwmDutyA := p.core.out.dutyA, pwmDutyB := p.core.out.dutyB, pwmDutyC := p.core.out.dutyC
      gateEn := p.core.out.gate, commitStb := decide (Event.commit ∈ p.core.events)
      svmSector := p.core.svm.sector, pidOut := p.core.pid.out
      fault := p.core.status.faultStall, faultStb := decide (Event.fault 1 ∈ p.core.events)
      faultCode := p.core.hall.faultCode
      respValid := true, respErr := r.err, respData := r.data } := by
  simp only [Platform.ports, State.ports, hhost, hresp, List.contains_eq_mem]
  rfl

/-- Settles O56: the word offered to the core is answered, and the ports mirror that answer. -/
theorem portAnswersHost : Obligations.PortAnswersHost := by
  intro p w
  obtain ⟨t, hstep, hanswered⟩ := step_answered (s := p.offering w) (op := ⟨w, p.pins.hallIn⟩) (rest := []) rfl
  obtain ⟨r, hresp⟩ := hanswered.resp
  exact ⟨_, r, issueOp_eq_some_iff.2 ⟨t, hstep, rfl⟩, hstep, hresp, Platform.ports_hostOp rfl hresp⟩

/-! ### Serving a source -/

/-- The operation of a source's row is none of the second spellings, so its word decodes to it. -/
theorem decode_encode_sourceOp (src : Source) (now : Pins) : decode (encode (sourceOp src now)) = .ok (sourceOp src now) :=
  decode_encode_of_core (by cases src <;> rfl)

/-- While its source is enabled, the operation of a row passes its checks: `HALL.COMM`, `HALL.TICK` and `PID.UPDATE` have
none that a state can fail, and `SVM.COMPUTE` finds `MODE = 2`. -/
theorem exec_sourceOp_ok {src : Source} {now : Pins} {s t : State} (hen : sourceEnabled src s = true)
    (hexec : exec (sourceOp src now) s = .next t) : ∃ data, t.resp = some ⟨0, data⟩ := by
  cases src with
  | hall =>
    cases hexec
    by_cases hcode : now.hallIn = 0 ∨ now.hallIn = 7
    · rw [hallComm_invalid _ hen hcode]; exact ⟨_, rfl⟩
    · obtain ⟨h0, h7⟩ := not_or.1 hcode
      rw [hallComm_valid _ hen h0 h7]; exact ⟨_, rfl⟩
  | stallTick =>
    by_cases hthr : s.host.stallThr < satU16Inc s.hall.stallCnt
    · cases (execHallTick_fault hen hthr).symm.trans hexec; exact ⟨_, rfl⟩
    · cases (execHallTick_count hen hthr).symm.trans hexec; exact ⟨_, rfl⟩
  | pwmTick =>
    cases (exec_svmCompute ((sourceEnabled_pwmTick_iff s).1 hen) now.valphaIn now.vbetaIn).symm.trans hexec
    exact ⟨_, rfl⟩
  | pidTick => cases hexec; exact ⟨_, rfl⟩

/-- The core executes the operation of the source's row when its word is issued. -/
theorem step_offering_sourceOp (p : Platform) (src : Source) :
    step (p.offering (encode (sourceOp src p.pins))) =
      exec (sourceOp src p.pins) (advance ⟨encode (sourceOp src p.pins), p.pins.hallIn⟩ [] p.core) :=
  step_eq_exec_of_decode (s := p.offering _) (op := ⟨_, p.pins.hallIn⟩) rfl (decode_encode_sourceOp src p.pins)

/-- Settles O54: a serve that answers is an issue of the row's operation, which the core executes in a state where the
source is still enabled, so it is not refused. -/
theorem frontEndIsNeverRefused : Obligations.FrontEndIsNeverRefused := by
  intro p q src hserve
  obtain ⟨⟨hen, hpending⟩, hissue⟩ := platformStep_serve_eq_some_iff.1 hserve
  obtain ⟨t, hstep, rfl⟩ := issueOp_eq_some_iff.1 hissue
  have hexec := (step_offering_sourceOp p src).symm.trans hstep
  have henabled : sourceEnabled src (advance ⟨encode (sourceOp src p.pins), p.pins.hallIn⟩ [] p.core) = true := by
    cases src <;> exact hen
  refine ⟨?armed, ?modulating, hpending, ?served, fun other hne => ?others, hstep, ⟨_, rfl, ?row, hexec⟩,
    exec_sourceOp_ok henabled hexec, Platform.ports_respValid_frontEnd rfl, rfl⟩
  case armed => rintro (rfl | rfl) <;> exact hen
  case modulating => rintro rfl; exact (sourceEnabled_pwmTick_iff _).1 hen
  case served => rw [pending_holdClear, pending_clearLatch, bne_self_eq_false, Bool.false_and, Bool.false_and]
  case others => rw [pending_holdClear, pending_clearLatch, bne_iff_ne.2 hne, Bool.true_and]
  case row => cases src <;> simp [sourceOp]

end Sys2Proof.Machine
end

section
/-! Reset, and the totality of the step: what every step takes from the stream and emits
(spec/70_reset_and_hazards.md R241, R257). -/

namespace Sys2Proof.Machine

/-- Settles O51: the exceptions are the five of R241 and the pins; the read of every other register unfolds to the word of a
zero field. -/
theorem resetValues : Obligations.ResetValues := by
  refine ⟨rfl, rfl, rfl, rfl, rfl, fun r hr => ?_⟩
  cases r with
  | stallThr | pidOutMin | pidIntMin | pidOutMax | pidIntMax | hallIn => exact absurd (by decide) hr
  | _ => rfl

/-- No operation touches the operations still to be issued (spec/10_state.md R24). -/
theorem Effect.stream {i : Instr} {s t : State} (heffect : Effect i s t) : t.stream = s.stream := by
  cases heffect with
  | written => exact storeReg_stream _ _ s
  | _ => rfl

/-- An operation emits nothing, one commit, or, where it enters the fault, one commit and the report
(spec/41_hall_commutation.md R122, spec/60_exceptions.md R227). -/
theorem Effect.events_cases {i : Instr} {s t : State} (heffect : Effect i s t) :
    t.events = s.events ∨ t.events = s.events ++ [.commit] ∨ t.events = s.events ++ [.commit, .fault 1] := by
  cases heffect with
  | commutated | stopped | modulated | modeWritten => exact .inr (.inl rfl)
  | stalled => exact .inr (.inr (List.append_assoc _ _ _))
  | written => exact .inl (storeReg_events _ _ s)
  | refused | answered | recorded | counted | rearmed | regulated | pidCleared => exact .inl rfl

/-- A step takes one operation from the stream, or finds it empty. -/
theorem step_stream {s t : State} (h : step s = .next t) : t.stream = s.stream.tail := by
  obtain ⟨hidle, heq⟩ | ⟨op, rest, i, hstream, -, heq⟩ | ⟨op, rest, e, hstream, -, heq⟩ := step_cases s
  · cases heq.symm.trans h
    rw [clearOutputs_stream, hidle, List.tail_nil]
  · rw [(effect_of_exec (heq.symm.trans h)).stream, hstream, List.tail_cons]
  · cases heq.symm.trans h
    rw [raiseOpError_stream, hstream, List.tail_cons]

/-- The events of a step are those of its one operation, since the step starts with none. -/
theorem step_events {s t : State} (h : step s = .next t) : t.events ∈ [[], [.commit], [.commit, .fault 1]] := by
  obtain rfl | ⟨op, rest, ⟨i, heffect⟩ | ⟨opc, e, rfl⟩⟩ := step_effect h
  · exact List.mem_cons_self
  · have hstart : (advance op rest s).events = [] := rfl
    simpa [hstart] using heffect.events_cases
  · exact List.mem_cons_self

/-- The error code of an answer is one of spec/60_exceptions.md R210 or 0, and an error comes with data 0 and no event
(R211). -/
theorem Answered.response {opc : Opcode} {s t : State} (h : Answered opc s t) :
    ∃ r, t.resp = some r ∧ r.err.toNat ≤ 4 ∧ (r.err ≠ 0 → r.data = 0 ∧ t.events = s.events) := by
  obtain ⟨e, rfl⟩ | ⟨data, hok⟩ := h
  · exact ⟨_, raiseOpError_resp opc e s, opErrCode_le e, fun _ => ⟨rfl, raiseOpError_events opc e s⟩⟩
  · exact ⟨_, hok, Nat.zero_le 4, fun herr => absurd rfl herr⟩

/-- Settles O11: the step on an offered word gives an answer, and every step's stream and events have the shape asked. -/
theorem everyWordIsAnswered : Obligations.EveryWordIsAnswered := by
  intro s op rest hstream
  obtain ⟨t, hstep, hanswered⟩ := step_answered hstream
  obtain ⟨r, hresp, herr, hdata⟩ := hanswered.response
  have hrest : t.stream = rest := by rw [step_stream hstep, hstream, List.tail_cons]
  exact ⟨t, r, hstep, hresp, hrest, herr, step_events hstep, hdata⟩

end Sys2Proof.Machine
end
